-- ==== Sys2Proof/Word.lean ====
section
/-! DEFINITION. The word types of the block (00_scope.md R5, R11). -/

namespace Sys2Proof

/-- `u8`: a CPU data byte, `command`, `irqLatch`, `irqCounter`, a storage byte. -/
abbrev Byte := BitVec 8

/-- `u16`: a CPU address, or the PPU address value of a tick. -/
abbrev Addr := BitVec 16

/-- An area id 0..3 of a physical nametable buffer (10_state.md R42). -/
abbrev Area := Fin 4

end Sys2Proof
end

