-- ==== Sys2Proof/Config.lean ====
section
/-! DEFINITION. Byte ranges, the cartridge descriptor and the configuration (00_scope.md R4, R5). -/

namespace Sys2Proof

/-- A byte range of `size` bytes: the cells that differ from what an unlisted byte reads as, by
strictly rising address. The canonical form is `Memory.wf` (Machine/Storage.lean). -/
structure Memory where
  size  : Nat
  cells : List Host.Cell
  deriving DecidableEq, Repr

/-- The descriptor's `mirroring`: "one of {Horizontal, Vertical, FourScreen, SingleScreen(area)}" (R4). -/
inductive Mirroring where
  | horizontal
  | vertical
  | fourScreen
  | singleScreen (area : Area)
  deriving DecidableEq, Repr

/-- The cartridge descriptor (R4): sizes in bytes, the mirroring default and the two ROM byte ranges. -/
structure Descriptor where
  prgROMSize        : Nat
  chrROMSize        : Nat
  prgRAMSize        : Nat
  chrRAMSize        : Nat
  prgRAMSizeBattery : Nat
  chrRAMSizeBattery : Nat
  mirroring         : Mirroring
  prgROM            : Memory
  chrROM            : Memory
  deriving DecidableEq, Repr

/-- The configuration of a session. `altMode` is `ALT_MODE` (10_state.md R29) and `chr2kTargetShift`
is `CHR2K_TARGET_SHIFT` (R5): both are OPEN in the spec (D6, D8), so statements hold for every value. -/
structure Config where
  altMode          : Bool
  chr2kTargetShift : Nat
  descriptor       : Descriptor
  deriving DecidableEq, Repr

/-- Program-storage unit: 8 KiB, exponent 13 (R5). -/
abbrev prgExp : Nat := 13

/-- Graphics-storage unit: 1 KiB, exponent 10 (R5). -/
abbrev chrExp : Nat := 10

end Sys2Proof
end

