-- ==== Sys2Proof/Machine/Storage.lean ====
section
/-! DEFINITION. Operations on a byte range (20_memory.md R50, R58, R59: every access is one byte). -/

namespace Sys2Proof

/-- What a byte that is not listed reads as: `powerUp()` zeroes RAM (43_host_interface.md R202), and a
byte range may be written down without its zeros (log 7). -/
def unlistedByte : Byte := 0

/-- The cells are strictly rising from `lo`, inside `size`, and none holds the unlisted value. -/
def cellsWf (size : Nat) : Nat → List Host.Cell → Bool
  | _, [] => true
  | lo, (a, v) :: rest =>
    decide (lo ≤ a) && decide (a < size) && decide (v ≠ unlistedByte) && cellsWf size (a + 1) rest

/-- The canonical form: equal contents are equal data. -/
def Memory.wf (m : Memory) : Bool := cellsWf m.size 0 m.cells

def readCells : List Host.Cell → Nat → Byte
  | [], _ => unlistedByte
  | (b, v) :: rest, a => if a = b then v else readCells rest a

/-- Byte `a` of the range. -/
def Memory.read (m : Memory) (a : Nat) : Byte := readCells m.cells a

/-- Byte `a` of the range, `none` beyond it. -/
def Memory.load (m : Memory) (a : Nat) : Option Byte := if a < m.size then some (m.read a) else none

/-- The cell `(a, v)` as a list: none where `v` is what an unlisted byte reads as. -/
def cellOf (a : Nat) (v : Byte) : List Host.Cell := if v = unlistedByte then [] else [(a, v)]

def writeCells : List Host.Cell → Nat → Byte → List Host.Cell
  | [], a, v => cellOf a v
  | (b, u) :: rest, a, v =>
    if a < b then cellOf a v ++ (b, u) :: rest
    else if a = b then cellOf a v ++ rest
    else (b, u) :: writeCells rest a v

/-- Byte `a` becomes `v`; an address outside the range holds nothing. -/
def Memory.write (m : Memory) (a : Nat) (v : Byte) : Memory :=
  if a < m.size then { m with cells := writeCells m.cells a v } else m

/-- Bytes `start`, `start + 1`, … become those of the list, ascending. -/
def Memory.writeBytes (m : Memory) : Nat → List Byte → Memory
  | _, [] => m
  | start, v :: rest => Memory.writeBytes (m.write start v) (start + 1) rest

/-- Bytes 0 to `n - 1`, in order. -/
def Memory.readBytes (m : Memory) (n : Nat) : List Byte := (List.range n).map m.read

/-- Every byte from `n` on becomes 0; the bytes before it stay. -/
def Memory.zeroFrom (m : Memory) (n : Nat) : Memory :=
  { m with cells := m.cells.filter (fun c => decide (c.1 < n)) }

/-- A range of `size` zero bytes. -/
def Memory.zeros (size : Nat) : Memory := { size := size, cells := [] }

/-- A new range of `size` bytes that shows the drawn cells, later cells over earlier ones. Every
content of `size` bytes is shown by some list. -/
def Memory.ofDraw (size : Nat) (cells : List Host.Cell) : Memory :=
  cells.foldl (fun m c => m.write c.1 c.2) (Memory.zeros size)

end Sys2Proof
end

