-- ==== Sys2Proof/Machine/Admission.lean ====
section
/-! DEFINITION. Which configurations are admitted (00_scope.md R6), and the graphics physical size
(40_bank_window.md R118). -/

namespace Sys2Proof

/-- `n` is a power of two. -/
def isPow2 (n : Nat) : Bool := decide (n = 2 ^ n.log2)

/-- `CHR_PHYS` (40_bank_window.md R118). -/
def Descriptor.chrPhys (d : Descriptor) : Nat :=
  if d.chrROMSize > 0 then d.chrROMSize else d.chrRAMSize

/-- R6 (1). -/
def Descriptor.prgROMSizeOk (d : Descriptor) : Bool :=
  isPow2 d.prgROMSize && decide (8192 ≤ d.prgROMSize)

/-- R6 (2). -/
def Descriptor.chrPhysOk (d : Descriptor) : Bool :=
  isPow2 d.chrPhys && decide (1024 ≤ d.chrPhys)

/-- R6 (3). -/
def Descriptor.ramSizesOk (d : Descriptor) : Bool :=
  (decide (d.prgRAMSize = 0) || (isPow2 d.prgRAMSize && decide (8192 ≤ d.prgRAMSize))) &&
    (decide (d.chrRAMSize = 0) || (isPow2 d.chrRAMSize && decide (1024 ≤ d.chrRAMSize)))

/-- R6 (4). -/
def Descriptor.batteriesFit (d : Descriptor) : Bool :=
  decide (d.prgRAMSizeBattery ≤ d.prgRAMSize) && decide (d.chrRAMSizeBattery ≤ d.chrRAMSize)

/-- R6 (5). -/
def Descriptor.oneBattery (d : Descriptor) : Bool :=
  decide (d.prgRAMSizeBattery = 0) || decide (d.chrRAMSizeBattery = 0)

/-- R6 (6). -/
def Descriptor.romLengthsOk (d : Descriptor) : Bool :=
  decide (d.prgROM.size = d.prgROMSize) && decide (d.chrROM.size = d.chrROMSize)

/-- The two ROM ranges are in canonical form, so that each is one sequence of bytes (log 7). -/
def Descriptor.romsCanonical (d : Descriptor) : Bool := d.prgROM.wf && d.chrROM.wf

/-- An admitted descriptor (R6). -/
def Descriptor.wellFormed (d : Descriptor) : Bool :=
  d.prgROMSizeOk && d.chrPhysOk && d.ramSizesOk && d.batteriesFit && d.oneBattery &&
    d.romLengthsOk && d.romsCanonical

end Sys2Proof
end

