-- ==== Sys2Proof/Machine/Slot.lean ====
section
/-! DEFINITION. Register slots (30_encoding.md R82, R83) and the sub-function of a bank-data write
(R84, R85). -/

namespace Sys2Proof

/-- The slots of R83, with `ignored` for every masked value that has bit 15 clear. -/
inductive Slot where
  | bankSelect
  | bankData
  | mirror
  | prgramProtect
  | irqLatch
  | irqReload
  | irqDisable
  | irqEnable
  | ignored
  deriving DecidableEq, Repr

/-- `address & 0xE001` (R82). -/
def maskedAddress (address : Addr) : Addr := address &&& 0xE001

/-- The slot a written address selects (R83). By the mask of R82 each slot answers at 4096 addresses,
where R90 (2) says both that `address[12:1]` never affects the decode and that there are 2048: the mask
is followed (DEDUCED, log 16). -/
def slotOf (address : Addr) : Slot :=
  if maskedAddress address = 0x8000 then .bankSelect
  else if maskedAddress address = 0x8001 then .bankData
  else if maskedAddress address = 0xA000 then .mirror
  else if maskedAddress address = 0xA001 then .prgramProtect
  else if maskedAddress address = 0xC000 then .irqLatch
  else if maskedAddress address = 0xC001 then .irqReload
  else if maskedAddress address = 0xE000 then .irqDisable
  else if maskedAddress address = 0xE001 then .irqEnable
  else .ignored

/-- `sf = command[2:0]` (R84). -/
def subFunction (command : Byte) : BitVec 3 := command.extractLsb' 0 3

/-- The watched PPU address bit, A12 (R87). -/
def a12 (p : Addr) : Bool := p.getLsbD 12

end Sys2Proof
end

