-- ==== Sys2Proof/Syntax.lean ====
section
/-! DEFINITION. The calls as they arrive at the block, and the instructions they decode to: one
constructor per row of spec/opcode_table.json. -/

namespace Sys2Proof

/-- A host operation with its arguments as the host gives them (30_encoding.md R88). -/
inductive HostCall where
  | initialise (d : Descriptor)
  | inject
  | powerUp
  | getNVRAMSize
  | getNVRAM
  | setNVRAM (data : List Byte)
  | setMirroringHorizontal
  | setMirroringVertical
  | setMirroringFourScreen
  | setMirroringSingleScreen (area : Nat)
  | setMirroringAreas (a0 a1 a2 a3 : Nat)
  deriving DecidableEq, Repr

/-- A transaction as called: the three kinds are told apart by the entry point (30_encoding.md R80).
The operands are plain numbers, since one outside its type is refused, not truncated (R91). -/
inductive Transaction where
  /-- `write(address, value)`. -/
  | cpuw (address value : Nat)
  /-- `tick()` with the PPU address value `p`. -/
  | pput (p : Nat)
  | host (call : HostCall)
  deriving DecidableEq, Repr

/-- A storage access served through the block's tables (20_memory.md R52 to R55). It is no transaction
of the block (30_encoding.md R92) and so no instruction. -/
inductive Access where
  /-- MR: a CPU read. -/
  | cpuRead (a : Nat)
  /-- MW: the storage side of a CPU write. -/
  | cpuStore (a v : Nat)
  /-- PR: a PPU read. -/
  | ppuRead (p : Nat)
  /-- A PPU write (R54, R55). -/
  | ppuStore (p v : Nat)
  deriving DecidableEq, Repr

/-- What the driver does next (10_state.md R22). -/
inductive Event where
  | transaction (t : Transaction)
  | access (a : Access)
  deriving DecidableEq, Repr

/-- Why an operand has no meaning (30_encoding.md R91; 43_host_interface.md R210, R211). -/
inductive DecodeError where
  /-- A CPU address above 0xFFFF. -/
  | cpuAddressOutOfRange
  /-- A data value above 0xFF. -/
  | dataValueOutOfRange
  /-- A PPU address value above 0xFFFF. -/
  | ppuAddressOutOfRange
  /-- An area id outside 0..3. -/
  | areaOutOfRange
  deriving DecidableEq, Repr

/-- The instructions. A CPUW row keeps the whole written address, whose bits 12:1 the decode ignores
(30_encoding.md R90); a PPUT row keeps the whole PPU address value. -/
inductive Instr where
  | bankSelect (address : Addr) (value : Byte)
  | bankDataSf0 (address : Addr) (value : Byte)
  | bankDataSf1 (address : Addr) (value : Byte)
  | bankDataSf2 (address : Addr) (value : Byte)
  | bankDataSf3 (address : Addr) (value : Byte)
  | bankDataSf4 (address : Addr) (value : Byte)
  | bankDataSf5 (address : Addr) (value : Byte)
  | bankDataSf6 (address : Addr) (value : Byte)
  | bankDataSf7 (address : Addr) (value : Byte)
  | mirror (address : Addr) (value : Byte)
  | prgramProtect (address : Addr) (value : Byte)
  | irqLatch (address : Addr) (value : Byte)
  | irqReload (address : Addr) (value : Byte)
  | irqDisable (address : Addr) (value : Byte)
  | irqEnable (address : Addr) (value : Byte)
  | ignored (address : Addr) (value : Byte)
  | tickLow (p : Addr)
  | tickHigh (p : Addr)
  | initialise (d : Descriptor)
  | inject
  | powerUp
  | getNVRAMSize
  | getNVRAM
  | setNVRAM (data : List Byte)
  | setMirroringHorizontal
  | setMirroringVertical
  | setMirroringFourScreen
  | setMirroringSingleScreen (area : Area)
  | setMirroringAreas (a0 a1 a2 a3 : Area)
  deriving DecidableEq, Repr

end Sys2Proof
end

