-- ==== Sys2Proof/WellFormed.lean ====
section
/-! DEFINITION. Which instructions are well formed: the written address selects the row's slot
(30_encoding.md R83), A12 is the row's (R87), an initialised descriptor is admitted (00_scope.md R6). -/

namespace Sys2Proof

/-- The fields of the instruction agree with its row of the opcode table. -/
def Instr.wellFormed : Instr → Bool
  | .bankSelect a _ => decide (slotOf a = .bankSelect)
  | .bankDataSf0 a _ => decide (slotOf a = .bankData)
  | .bankDataSf1 a _ => decide (slotOf a = .bankData)
  | .bankDataSf2 a _ => decide (slotOf a = .bankData)
  | .bankDataSf3 a _ => decide (slotOf a = .bankData)
  | .bankDataSf4 a _ => decide (slotOf a = .bankData)
  | .bankDataSf5 a _ => decide (slotOf a = .bankData)
  | .bankDataSf6 a _ => decide (slotOf a = .bankData)
  | .bankDataSf7 a _ => decide (slotOf a = .bankData)
  | .mirror a _ => decide (slotOf a = .mirror)
  | .prgramProtect a _ => decide (slotOf a = .prgramProtect)
  | .irqLatch a _ => decide (slotOf a = .irqLatch)
  | .irqReload a _ => decide (slotOf a = .irqReload)
  | .irqDisable a _ => decide (slotOf a = .irqDisable)
  | .irqEnable a _ => decide (slotOf a = .irqEnable)
  | .ignored a _ => decide (slotOf a = .ignored)
  | .tickLow p => !a12 p
  | .tickHigh p => a12 p
  | .initialise d => d.wellFormed
  | .inject => true
  | .powerUp => true
  | .getNVRAMSize => true
  | .getNVRAM => true
  | .setNVRAM _ => true
  | .setMirroringHorizontal => true
  | .setMirroringVertical => true
  | .setMirroringFourScreen => true
  | .setMirroringSingleScreen _ => true
  | .setMirroringAreas _ _ _ _ => true

/-- The row's `condition` on `command[2:0]` in the opcode table: a bank-data row is selected by the
latched sub-function (30_encoding.md R85); every other row by its encoding alone. -/
def Instr.selectedBy (command : Byte) : Instr → Bool
  | .bankDataSf0 _ _ => decide (subFunction command = 0)
  | .bankDataSf1 _ _ => decide (subFunction command = 1)
  | .bankDataSf2 _ _ => decide (subFunction command = 2)
  | .bankDataSf3 _ _ => decide (subFunction command = 3)
  | .bankDataSf4 _ _ => decide (subFunction command = 4)
  | .bankDataSf5 _ _ => decide (subFunction command = 5)
  | .bankDataSf6 _ _ => decide (subFunction command = 6)
  | .bankDataSf7 _ _ => decide (subFunction command = 7)
  | .bankSelect _ _ => true
  | .mirror _ _ => true
  | .prgramProtect _ _ => true
  | .irqLatch _ _ => true
  | .irqReload _ _ => true
  | .irqDisable _ _ => true
  | .irqEnable _ _ => true
  | .ignored _ _ => true
  | .tickLow _ => true
  | .tickHigh _ => true
  | .initialise _ => true
  | .inject => true
  | .powerUp => true
  | .getNVRAMSize => true
  | .getNVRAM => true
  | .setNVRAM _ => true
  | .setMirroringHorizontal => true
  | .setMirroringVertical => true
  | .setMirroringFourScreen => true
  | .setMirroringSingleScreen _ => true
  | .setMirroringAreas _ _ _ _ => true

end Sys2Proof
end

