-- ==== Sys2Proof/Decode.lean ====
section
/-! DEFINITION. From a call to an instruction, and back (30_encoding.md R80 to R91). -/

namespace Sys2Proof

/-- The sub-function row a bank-data write runs (R85; 41_register_writes.md R132). -/
def decodeBankData (command : Byte) (address : Addr) (value : Byte) : Instr :=
  if subFunction command = 0 then .bankDataSf0 address value
  else if subFunction command = 1 then .bankDataSf1 address value
  else if subFunction command = 2 then .bankDataSf2 address value
  else if subFunction command = 3 then .bankDataSf3 address value
  else if subFunction command = 4 then .bankDataSf4 address value
  else if subFunction command = 5 then .bankDataSf5 address value
  else if subFunction command = 6 then .bankDataSf6 address value
  else .bankDataSf7 address value

/-- `write(address, value)` with operands in range (R83; 41_register_writes.md R130). -/
def decodeWrite (command : Byte) (address : Addr) (value : Byte) : Instr :=
  match slotOf address with
  | .bankSelect => .bankSelect address value
  | .bankData => decodeBankData command address value
  | .mirror => .mirror address value
  | .prgramProtect => .prgramProtect address value
  | .irqLatch => .irqLatch address value
  | .irqReload => .irqReload address value
  | .irqDisable => .irqDisable address value
  | .irqEnable => .irqEnable address value
  | .ignored => .ignored address value

/-- `tick()` with an address value in range (R87). -/
def decodeTick (p : Addr) : Instr := if a12 p then .tickHigh p else .tickLow p

/-- An area id, refused outside 0..3 (43_host_interface.md R210, R211). -/
def areaOf (a : Nat) : Except DecodeError Area :=
  if h : a < 4 then .ok ⟨a, h⟩ else .error .areaOutOfRange

/-- A host operation is selected by the call itself (R88). -/
def decodeHost : HostCall → Except DecodeError Instr
  | .initialise d => .ok (.initialise d)
  | .inject => .ok .inject
  | .powerUp => .ok .powerUp
  | .getNVRAMSize => .ok .getNVRAMSize
  | .getNVRAM => .ok .getNVRAM
  | .setNVRAM data => .ok (.setNVRAM data)
  | .setMirroringHorizontal => .ok .setMirroringHorizontal
  | .setMirroringVertical => .ok .setMirroringVertical
  | .setMirroringFourScreen => .ok .setMirroringFourScreen
  | .setMirroringSingleScreen a =>
    match areaOf a with
    | .ok a => .ok (.setMirroringSingleScreen a)
    | .error e => .error e
  | .setMirroringAreas a0 a1 a2 a3 =>
    match areaOf a0, areaOf a1, areaOf a2, areaOf a3 with
    | .ok a0, .ok a1, .ok a2, .ok a3 => .ok (.setMirroringAreas a0 a1 a2 a3)
    | _, _, _, _ => .error .areaOutOfRange

/-- The instruction a call stands for while `command` is latched. Operands outside their type are
refused by name, never truncated (R91). -/
def decode (command : Byte) : Transaction → Except DecodeError Instr
  | .cpuw address value =>
    if 0xFFFF < address then .error .cpuAddressOutOfRange
    else if 0xFF < value then .error .dataValueOutOfRange
    else .ok (decodeWrite command (BitVec.ofNat 16 address) (BitVec.ofNat 8 value))
  | .pput p =>
    if 0xFFFF < p then .error .ppuAddressOutOfRange
    else .ok (decodeTick (BitVec.ofNat 16 p))
  | .host call => decodeHost call

/-- The call of a `write` with these operands. -/
def encodeWrite (address : Addr) (value : Byte) : Transaction := .cpuw address.toNat value.toNat

/-- The call an instruction stands for (R81, R87, R88). -/
def encode : Instr → Transaction
  | .bankSelect a v => encodeWrite a v
  | .bankDataSf0 a v => encodeWrite a v
  | .bankDataSf1 a v => encodeWrite a v
  | .bankDataSf2 a v => encodeWrite a v
  | .bankDataSf3 a v => encodeWrite a v
  | .bankDataSf4 a v => encodeWrite a v
  | .bankDataSf5 a v => encodeWrite a v
  | .bankDataSf6 a v => encodeWrite a v
  | .bankDataSf7 a v => encodeWrite a v
  | .mirror a v => encodeWrite a v
  | .prgramProtect a v => encodeWrite a v
  | .irqLatch a v => encodeWrite a v
  | .irqReload a v => encodeWrite a v
  | .irqDisable a v => encodeWrite a v
  | .irqEnable a v => encodeWrite a v
  | .ignored a v => encodeWrite a v
  | .tickLow p => .pput p.toNat
  | .tickHigh p => .pput p.toNat
  | .initialise d => .host (.initialise d)
  | .inject => .host .inject
  | .powerUp => .host .powerUp
  | .getNVRAMSize => .host .getNVRAMSize
  | .getNVRAM => .host .getNVRAM
  | .setNVRAM data => .host (.setNVRAM data)
  | .setMirroringHorizontal => .host .setMirroringHorizontal
  | .setMirroringVertical => .host .setMirroringVertical
  | .setMirroringFourScreen => .host .setMirroringFourScreen
  | .setMirroringSingleScreen a => .host (.setMirroringSingleScreen a.val)
  | .setMirroringAreas a0 a1 a2 a3 => .host (.setMirroringAreas a0.val a1.val a2.val a3.val)

/-- A CPUW word is `{address[15:0], value[7:0]}` (R81). -/
def cpuwWord (address : Addr) (value : Byte) : BitVec 24 := address ++ value

/-- A CPUW row of the opcode table: the word `w` is the row's when `w & mask = pattern`. -/
structure CpuwRow where
  mask    : BitVec 24
  pattern : BitVec 24
  slot    : Slot
  deriving DecidableEq, Repr

/-- The CPUW rows of spec/opcode_table.json, with one entry for the eight BANK_DATA rows, which share
one match and mask (R85). -/
def cpuwRows : List CpuwRow :=
  [ ⟨0xE00100, 0x800000, .bankSelect⟩,
    ⟨0xE00100, 0x800100, .bankData⟩,
    ⟨0xE00100, 0xA00000, .mirror⟩,
    ⟨0xE00100, 0xA00100, .prgramProtect⟩,
    ⟨0xE00100, 0xC00000, .irqLatch⟩,
    ⟨0xE00100, 0xC00100, .irqReload⟩,
    ⟨0xE00100, 0xE00000, .irqDisable⟩,
    ⟨0xE00100, 0xE00100, .irqEnable⟩,
    ⟨0x800000, 0x000000, .ignored⟩ ]

/-- The word is the row's. -/
def CpuwRow.covers (r : CpuwRow) (w : BitVec 24) : Bool := decide (w &&& r.mask = r.pattern)

/-- The call a table word stands for: 24 bits are a CPUW word (R81), 16 bits a PPUT value (R87), and
8 bits the one host operation to which the table gives an operand field, `setMirroringSingleScreen`.
A row without bits is selected by its entry point alone (R88) and has no word (log 13). -/
def tableTransaction (nbits w : Nat) : Option Transaction :=
  if nbits = 24 then some (.cpuw (w / 256) (w % 256))
  else if nbits = 16 then some (.pput w)
  else if nbits = 8 then some (.host (.setMirroringSingleScreen w))
  else none

/-- The instruction the decoder reads from a table word, with `command` at its reset value 0: the
eight BANK_DATA rows are one word and the latch selects among them (R85), so it is SF0's (log 13). -/
def decodeTableWord (nbits w : Nat) : Option Instr :=
  match tableTransaction nbits w with
  | none => none
  | some t => (decode 0 t).toOption

end Sys2Proof
end

