-- ==== Sys2Proof/Machine/BankWindow.lean ====
section
/-! DEFINITION. The bank window mapper's arithmetic (40_bank_window.md). -/

namespace Sys2Proof.Machine

/-- The mask of a storage of `size` bytes in units of `2^e` bytes, which is also its last unit (R110). -/
def maxUnit (size e : Nat) : Nat := (size - 1) >>> e

/-- `d & m` for a mask `m = 2^k - 1`: the non-negative remainder modulo `m + 1` (R111; 00_scope.md R8). -/
def wrap (d : Int) (m : Nat) : Nat := (d % ((m : Int) + 1)).toNat

/-- `n` consecutive unit assignments, ascending (R112). -/
def mapBankWindow {w : Nat} (src : Nat) (dst : Int) (n e size : Nat) (table : Vector Nat w) : Vector Nat w :=
  (List.range n).foldl
    (fun t i => t.setIfInBounds (src + i) (wrap (dst + (i : Int)) (maxUnit size e))) table

/-- A request of `k` units for window `s` and bank `b`, both numbered in windows of `k` units (R113). -/
def request {w : Nat} (k s : Nat) (b : Int) (e size : Nat) (table : Vector Nat w) : Vector Nat w :=
  mapBankWindow (s * k) (b * (k : Int)) k e size table

end Sys2Proof.Machine
end

