-- ==== Sys2Proof/Machine/State.lean ====
section
/-! DEFINITION. The state of the block (10_state.md R20), the reasons a step can stop, and the state
after reset. -/

namespace Sys2Proof.Machine

/-- Boot progress (10_state.md R38). -/
inductive Phase where
  | uninit
  | initialized
  | running
  deriving DecidableEq, Repr

/-- A physical space (20_memory.md R50). -/
inductive Space where
  | prgROM
  | chrROM
  | prgRAM
  | chrRAM
  deriving DecidableEq, Repr

/-- What the last host query or window access answered, an output of the block (20_memory.md R68). -/
inductive Reply where
  /-- Nothing has been asked. -/
  | nothing
  /-- `getNVRAMSize()` (43_host_interface.md R204). -/
  | nvramSize (n : Nat)
  /-- `getNVRAM()`: the bytes, or absent (R205). -/
  | nvram (data : Option (List Byte))
  /-- A read of storage (20_memory.md R52 to R54). -/
  | byte (v : Byte)
  /-- An access that goes to a nametable area at an offset; its storage is the collaborator's (R55). -/
  | nametable (area : Area) (offset : Nat)
  /-- Nothing of the block answers (R53): no value is given. -/
  | notOurs
  deriving DecidableEq, Repr

/-- The FREE VALUES `initialize` shows: "bytes[...] of unspecified value", and "all other fields of
10_state.md rule R20 are unspecified until `powerUp()`" (43_host_interface.md R200). -/
structure Draw where
  command            : Byte
  irqLatch           : Byte
  irqCounter         : Byte
  irqReloadPending   : Bool
  irqEnabled         : Bool
  irqEdgeFilterDelay : BitVec 3
  irqOut             : Bool
  prgMap             : Vector Nat 4
  prgRamMap          : Option Nat
  chrMap             : Vector Nat 8
  ntMap              : Vector Area 4
  prgRAM             : List Host.Cell
  chrRAM             : List Host.Cell
  deriving DecidableEq, Repr

/-- The block's state record (R20), its configuration and the model's own fields. -/
structure State where
  /-- R4, R29, R37. -/
  cfg                : Config
  /-- R23. -/
  command            : Byte
  /-- R24. -/
  irqLatch           : Byte
  /-- R25. -/
  irqCounter         : Byte
  /-- R26. -/
  irqReloadPending   : Bool
  /-- R27. -/
  irqEnabled         : Bool
  /-- R28. -/
  irqEdgeFilterDelay : BitVec 3
  /-- R30. -/
  irqOut             : Bool
  /-- R32. -/
  prgMap             : Vector Nat 4
  /-- R33, `none` for `unmapped`. -/
  prgRamMap          : Option Nat
  /-- R34. -/
  chrMap             : Vector Nat 8
  /-- R42. -/
  ntMap              : Vector Area 4
  /-- R35, `none` for absent. -/
  prgRAM             : Option Memory
  /-- R36, `none` for absent. -/
  chrRAM             : Option Memory
  /-- R38. -/
  phase              : Phase
  /-- The model's own: the last answer (log 5). -/
  reply              : Reply
  /-- The model's own: the driver's calls not yet made, oldest first (R22, log 1). -/
  pending            : List Event
  /-- The model's own: the free values of `initialize` (log 6). -/
  draw               : Draw
  deriving DecidableEq, Repr

/-- Why the model stops as a fault. The block itself raises none (60_exceptions.md R230). -/
inductive Fault where
  /-- An access to a byte the space does not have, raised by window accesses and by `getNVRAM` and
  `setNVRAM`. SAFE: no state that meets `Inv` (Safety.lean) raises it (log 8). -/
  | outsideStorage (space : Space)
  deriving DecidableEq, Repr

/-- Why the model has no meaning for an input (60_exceptions.md R232). All are SAFE: no step is
taken. -/
inductive Refusal where
  /-- An instruction without a meaning, raised by `exec`. SAFE. -/
  | notModelled (mnemonic : String)
  /-- The driver has no call pending, raised by `step`: one step per transaction (00_scope.md R12).
  SAFE. -/
  | noTransaction
  /-- An operand outside its type, raised by `step` for a transaction or an access (30_encoding.md
  R91; 43_host_interface.md R210, R211). SAFE. -/
  | badOperand (e : DecodeError)
  /-- A `write` or `tick` while the phase is not Running, raised by their meanings (10_state.md R38).
  SAFE. -/
  | notRunning
  /-- A host operation or an access that needs a descriptor, in phase Uninit (43_host_interface.md
  R202, R204; log 9). SAFE. -/
  | notInitialized
  /-- A second `initialize` (R200). SAFE. -/
  | alreadyInitialized
  /-- `initialize` with a descriptor that is not admitted (00_scope.md R6). SAFE. -/
  | illFormedDescriptor
  deriving DecidableEq, Repr

abbrev Outcome := Host.Outcome State Fault Refusal

/-- The configuration of 95_test_vectors.md section 2.3, with 8 KiB of program RAM (log 3). -/
def resetDescriptor : Descriptor where
  prgROMSize        := 0x20000
  chrROMSize        := 0x20000
  prgRAMSize        := 0x2000
  chrRAMSize        := 0
  prgRAMSizeBattery := 0
  chrRAMSizeBattery := 0
  mirroring         := .vertical
  prgROM            := { size := 0x20000, cells := [] }
  chrROM            := { size := 0x20000, cells := [] }

/-- The draw State.reset carries; no statement rests on it (log 6). -/
def resetDraw : Draw where
  command            := 0
  irqLatch           := 0
  irqCounter         := 0
  irqReloadPending   := false
  irqEnabled         := false
  irqEdgeFilterDelay := 0
  irqOut             := false
  prgMap             := #v[0, 0, 0, 0]
  prgRamMap          := none
  chrMap             := #v[0, 0, 0, 0, 0, 0, 0, 0]
  ntMap              := #v[0, 0, 0, 0]
  prgRAM             := []
  chrRAM             := []

/-- The block right after `powerUp()` and the `reset()` in it (43_host_interface.md R202,
70_reset_and_hazards.md R260), with the configuration of log 3. -/
def State.reset : State where
  cfg                := { altMode := false, chr2kTargetShift := 1, descriptor := resetDescriptor }
  command            := 0
  irqLatch           := 0
  irqCounter         := 0
  irqReloadPending   := false
  irqEnabled         := false
  irqEdgeFilterDelay := 0
  irqOut             := false
  prgMap             := #v[12, 13, 14, 15]
  prgRamMap          := some 0
  chrMap             := #v[0, 1, 2, 3, 4, 5, 6, 7]
  ntMap              := #v[0, 1, 0, 1]
  prgRAM             := some { size := 0x2000, cells := [] }
  chrRAM             := none
  phase              := .running
  reply              := .nothing
  pending            := []
  draw               := resetDraw

end Sys2Proof.Machine
end

