-- ==== Sys2Proof/Machine/Flags.lean ====
section
/-! DEFINITION. The Boolean status `irqReloadPending`, `irqEnabled`, `irqOut` (10_state.md R31) and the
condition that raises the line. -/

namespace Sys2Proof.Machine

/-- `assertIRQ()` (42_irq_counter.md R175). -/
def assertIRQ (s : State) : State := { s with irqOut := true }

/-- `clearIRQ()` (41_register_writes.md R145). -/
def clearIRQ (s : State) : State := { s with irqOut := false }

/-- The assertion condition of R174, with the alternate-mode clause as 90_conflicts.md C4 resolves it
(log 11). -/
def assertFires (altMode enabled : Bool) (old : Byte) (reload : Bool) (new : Byte) : Bool :=
  enabled && decide (new = 0) && (!altMode || decide (old ≠ 0) || reload)

/-- ASSERT_CHECK (R174). -/
def assertCheck (old : Byte) (reload : Bool) (new : Byte) (s : State) : State :=
  if assertFires s.cfg.altMode s.irqEnabled old reload new then assertIRQ s else s

end Sys2Proof.Machine
end

