-- ==== Sys2Proof/Machine/Operands.lean ====
section
/-! DEFINITION. Operands assembled from the latched command and the written value (30_encoding.md R84,
R85, R86, R89). -/

namespace Sys2Proof.Machine

/-- `command[7]` as a number. -/
def chrMode (command : Byte) : Nat := (command.getLsbD 7).toNat

/-- `command[6]` as a number. -/
def prgMode (command : Byte) : Nat := (command.getLsbD 6).toNat

/-- The 2 KiB graphics window `{command[7], k}` (R85). -/
def chr2kWindow (command : Byte) (k : Nat) : Nat := (chrMode command <<< 1) ||| k

/-- The 1 KiB graphics unit `{!command[7], k[1], k[0]}` (R85). -/
def chr1kUnit (command : Byte) (k : Nat) : Nat := ((1 - chrMode command) <<< 2) ||| k

/-- The program unit `{command[6], 0}` that gets the written bank (R85; 41_register_writes.md R139). -/
def prgTargetUnit (command : Byte) : Nat := prgMode command <<< 1

/-- The complementary program unit `{!command[6], 0}` (R139). -/
def prgFixedUnit (command : Byte) : Nat := (1 - prgMode command) <<< 1

/-- The destination of a 2 KiB request, `V >> CHR2K_TARGET_SHIFT` (R89). -/
def chr2kTarget (shift : Nat) (value : Byte) : Int := ((value.toNat >>> shift : Nat) : Int)

/-- The destination of a 1 KiB or 8 KiB request, `zext_8(V)` (R89). -/
def bankTarget (value : Byte) : Int := (value.toNat : Int)

/-- `V[0]` of MIRROR: true selects Horizontal (R86). -/
def mirrorHorizontal (value : Byte) : Bool := value.getLsbD 0

end Sys2Proof.Machine
end

