-- ==== Sys2Proof/Machine/Ops.lean ====
section
/-! DEFINITION. Shared operations over the state. The block takes no exception and returns from none
(60_exceptions.md R230, R236, R237), so there is no such operation here; its one request to the CPU is
`assertIRQ` (Machine/Flags.lean). -/

namespace Sys2Proof.Machine

/-- A `write` or `tick` completes with `t` only while the block is Running (10_state.md R38). -/
def whenRunning (s t : State) : Outcome :=
  if s.phase = .running then .next t else .refused .notRunning

/-- A host operation that needs the descriptor (43_host_interface.md R202, R204). -/
def whenInitialized (s : State) (o : Outcome) : Outcome :=
  if s.phase = .uninit then .refused .notInitialized else o

/-- The answer of a query or an access. -/
def State.answer (s : State) (r : Reply) : State := { s with reply := r }

/-! ## Storage -/

/-- The bytes of a space, `none` where it is absent. -/
def State.storage (s : State) : Space → Option Memory
  | .prgROM => some s.cfg.descriptor.prgROM
  | .chrROM => some s.cfg.descriptor.chrROM
  | .prgRAM => s.prgRAM
  | .chrRAM => s.chrRAM

/-- Byte `a` of a space, `none` where the space has no such byte. -/
def State.byteAt (s : State) (sp : Space) (a : Nat) : Option Byte :=
  (s.storage sp).bind (fun m => m.load a)

/-- `MemRead(space, a, 1)`, answered to the caller (00_scope.md R9). -/
def memRead (sp : Space) (a : Nat) (s : State) : Outcome :=
  match s.byteAt sp a with
  | some v => .next (s.answer (.byte v))
  | none => .fault (.outsideStorage sp)

/-- The state with another content in a RAM; the ROMs are never mutated (20_memory.md R56). -/
def State.withRAM (s : State) (sp : Space) (m : Memory) : State :=
  match sp with
  | .prgRAM => { s with prgRAM := some m }
  | .chrRAM => { s with chrRAM := some m }
  | .prgROM => s
  | .chrROM => s

/-- `MemWrite(space, a, 1, v)` (00_scope.md R9). -/
def memWrite (sp : Space) (a : Nat) (v : Byte) (s : State) : Outcome :=
  match s.storage sp with
  | none => .fault (.outsideStorage sp)
  | some m =>
    if a < m.size then .next (s.withRAM sp (m.write a v)) else .fault (.outsideStorage sp)

/-! ## Bank requests (40_bank_window.md R114 to R116) -/

/-- A program request of `k` units (R114). -/
def prgRequest (k w : Nat) (b : Int) (s : State) : State :=
  { s with prgMap := request k w b prgExp s.cfg.descriptor.prgROMSize s.prgMap }

/-- The unit a one-unit program-RAM request for bank `b` gives (R115). -/
def prgRamUnit (b : Int) (size : Nat) : Nat :=
  (request 1 0 b prgExp size (Vector.replicate 1 0))[0]

/-- The program-RAM request of reset (R115): no assignment without program RAM. -/
def prgRamRequest (s : State) : State :=
  { s with
    prgRamMap :=
      if s.cfg.descriptor.prgRAMSize > 0 then some (prgRamUnit 0 s.cfg.descriptor.prgRAMSize)
      else none }

/-- A graphics request of `k` units (R116). -/
def chrRequest (k w : Nat) (b : Int) (s : State) : State :=
  { s with chrMap := request k w b chrExp s.cfg.descriptor.chrPhys s.chrMap }

/-! ## Mirroring -/

/-- `areas(mirroring)`, the tables of 43_host_interface.md R207 to R210. -/
def areas : Mirroring → Vector Area 4
  | .horizontal => #v[0, 0, 1, 1]
  | .vertical => #v[0, 1, 0, 1]
  | .fourScreen => #v[0, 1, 2, 3]
  | .singleScreen a => #v[a, a, a, a]

/-- The collaborator's `setMirroringAreas` (10_state.md R42). -/
def setAreas (t : Vector Area 4) (s : State) : State := { s with ntMap := t }

/-! ## The battery-backed RAM (43_host_interface.md R204) -/

/-- The RAM with the battery and the size of its battery-backed part; program RAM takes precedence. -/
def battery (d : Descriptor) : Option (Space × Nat) :=
  if d.prgRAMSizeBattery > 0 then some (.prgRAM, d.prgRAMSizeBattery)
  else if d.chrRAMSizeBattery > 0 then some (.chrRAM, d.chrRAMSizeBattery)
  else none

/-- `batSize`. -/
def batSize (d : Descriptor) : Nat :=
  match battery d with
  | none => 0
  | some (_, n) => n

/-! ## Scanline counter (42_irq_counter.md R173) -/

/-- The counter after an update. -/
def nextCount (latch old : Byte) (reload : Bool) : Byte :=
  if old = 0 ∨ reload = true then latch else old - 1

/-- COUNTER_UPDATE: the counter, then the assertion check, then the reload flag is cleared. -/
def counterUpdate (s : State) : State :=
  let new := nextCount s.irqLatch s.irqCounter s.irqReloadPending
  { assertCheck s.irqCounter s.irqReloadPending new { s with irqCounter := new } with
    irqReloadPending := false }

/-! ## Reset -/

/-- The register part of `reset()`: "clears all registers" (70_reset_and_hazards.md R260). -/
def clearRegisters (s : State) : State :=
  { s with
    command := 0
    irqCounter := 0
    irqLatch := 0
    irqReloadPending := false
    irqEnabled := false
    irqEdgeFilterDelay := 0 }

/-- `reset()` (R260). -/
def resetBlock (s : State) : State :=
  clearIRQ (clearRegisters (chrRequest 8 0 0 (prgRamRequest (prgRequest 4 0 (-1) s))))

/-- The RAM part of `powerUp()`: zeroes both RAMs behind their battery-backed parts
(43_host_interface.md R202). -/
def zeroSuffixes (s : State) : State :=
  { s with
    prgRAM := s.prgRAM.map (fun m => m.zeroFrom s.cfg.descriptor.prgRAMSizeBattery)
    chrRAM := s.chrRAM.map (fun m => m.zeroFrom s.cfg.descriptor.chrRAMSizeBattery) }

end Sys2Proof.Machine
end

