-- ==== Sys2Proof/Machine/HostOps.lean ====
section
/-! DEFINITION. The meanings of the host operations (43_host_interface.md). -/

namespace Sys2Proof.Machine

/-- A newly allocated RAM: absent for size 0, else bytes of unspecified value (R200). -/
def allocate (size : Nat) (draw : List Host.Cell) : Option Memory :=
  if size > 0 then some (Memory.ofDraw size draw) else none

/-- A drawn bank table, each entry inside its storage: table values are in range always (10_state.md
R32, R34). -/
def drawTable {w : Nat} (size e : Nat) (t : Vector Nat w) : Vector Nat w :=
  t.map (fun (p : Nat) => wrap (p : Int) (maxUnit size e))

/-- A drawn program-RAM unit, unmapped without program RAM (10_state.md R33). -/
def drawPrgRam (size : Nat) (p : Option Nat) : Option Nat :=
  if size > 0 then p.map (fun p => wrap (p : Int) (maxUnit size prgExp)) else none

/-- The state after `initialize(d)` (R200): the descriptor is copied, the RAMs are allocated, and every
other field of 10_state.md R20 is a free value until `powerUp()`. -/
def initialized (d : Descriptor) (s : State) : State :=
  { s with
    cfg := { s.cfg with descriptor := d }
    command := s.draw.command
    irqLatch := s.draw.irqLatch
    irqCounter := s.draw.irqCounter
    irqReloadPending := s.draw.irqReloadPending
    irqEnabled := s.draw.irqEnabled
    irqEdgeFilterDelay := s.draw.irqEdgeFilterDelay
    irqOut := s.draw.irqOut
    prgMap := drawTable d.prgROMSize prgExp s.draw.prgMap
    prgRamMap := drawPrgRam d.prgRAMSize s.draw.prgRamMap
    chrMap := drawTable d.chrPhys chrExp s.draw.chrMap
    ntMap := s.draw.ntMap
    prgRAM := allocate d.prgRAMSize s.draw.prgRAM
    chrRAM := allocate d.chrRAMSize s.draw.chrRAM
    phase := .initialized }

/-- The state after `powerUp()` (R202), which is also the user-triggered reset (R203). -/
def poweredUp (s : State) : State :=
  { resetBlock (setAreas (areas s.cfg.descriptor.mirroring) (zeroSuffixes s)) with phase := .running }

/-- The battery-backed bytes in a RAM of the state, refused by a fault where the RAM lacks them. -/
def batteryBytes (s : State) (sp : Space) (n : Nat) : Outcome :=
  match s.storage sp with
  | none => .fault (.outsideStorage sp)
  | some m =>
    if n ≤ m.size then .next (s.answer (.nvram (some (m.readBytes n)))) else .fault (.outsideStorage sp)

/-- Copies the first `n` bytes of `data` to the front of a RAM (R206). -/
def copyToBattery (s : State) (sp : Space) (n : Nat) (data : List Byte) : Outcome :=
  match s.storage sp with
  | none => .fault (.outsideStorage sp)
  | some m =>
    if n ≤ m.size then .next (s.withRAM sp (m.writeBytes 0 (data.take n))) else .fault (.outsideStorage sp)

/-- initialize (R200). -/
def execInitialise (d : Descriptor) (s : State) : Outcome :=
  if s.phase = .uninit then
    if d.wellFormed then .next (initialized d s) else .refused .illFormedDescriptor
  else .refused .alreadyInitialized

/-- inject: "connects the ports", no state field changes (R201). -/
def execInject (s : State) : Outcome := .next s

/-- powerUp (R202). -/
def execPowerUp (s : State) : Outcome := whenInitialized s (.next (poweredUp s))

/-- getNVRAMSize (R204). -/
def execGetNVRAMSize (s : State) : Outcome :=
  whenInitialized s (.next (s.answer (.nvramSize (batSize s.cfg.descriptor))))

/-- getNVRAM (R205). -/
def execGetNVRAM (s : State) : Outcome :=
  whenInitialized s
    (match battery s.cfg.descriptor with
    | none => .next (s.answer (.nvram none))
    | some (sp, n) => batteryBytes s sp n)

/-- setNVRAM (R206). -/
def execSetNVRAM (data : List Byte) (s : State) : Outcome :=
  whenInitialized s
    (match battery s.cfg.descriptor with
    | none => .next s
    | some (sp, n) => copyToBattery s sp n data)

/-- setMirroringHorizontal (R207). -/
def execSetMirroringHorizontal (s : State) : Outcome := .next (setAreas (areas .horizontal) s)

/-- setMirroringVertical (R208). -/
def execSetMirroringVertical (s : State) : Outcome := .next (setAreas (areas .vertical) s)

/-- setMirroringFourScreen (R209). -/
def execSetMirroringFourScreen (s : State) : Outcome := .next (setAreas (areas .fourScreen) s)

/-- setMirroringSingleScreen (R210). -/
def execSetMirroringSingleScreen (area : Area) (s : State) : Outcome :=
  .next (setAreas (areas (.singleScreen area)) s)

/-- setMirroringAreas (R211). -/
def execSetMirroringAreas (a0 a1 a2 a3 : Area) (s : State) : Outcome :=
  .next (setAreas #v[a0, a1, a2, a3] s)

end Sys2Proof.Machine
end

