-- ==== Sys2Proof/Machine/RegisterWrites.lean ====
section
/-! DEFINITION. The meanings of the register writes (41_register_writes.md). -/

namespace Sys2Proof.Machine

/-! ## Shared shapes -/

/-- A 2 KiB graphics bank write to window `{command[7], k}` (R133, R134). -/
def write2k (k : Nat) (value : Byte) (s : State) : State :=
  chrRequest 2 (chr2kWindow s.command k) (chr2kTarget s.cfg.chr2kTargetShift value) s

/-- A 1 KiB graphics bank write to unit `{!command[7], k[1], k[0]}` (R135 to R138). -/
def write1k (k : Nat) (value : Byte) (s : State) : State :=
  chrRequest 1 (chr1kUnit s.command k) (bankTarget value) s

/-- The two program banks of sub-function 6 (R139). -/
def writePrgPair (value : Byte) (s : State) : State :=
  prgRequest 1 (prgFixedUnit s.command) (-2) (prgRequest 1 (prgTargetUnit s.command) (bankTarget value) s)

/-- The mirroring a MIRROR write selects: none on a four-screen cartridge (R141). -/
def mirrorWrite (value : Byte) (s : State) : State :=
  if s.cfg.descriptor.mirroring = .fourScreen then s
  else if mirrorHorizontal value then setAreas (areas .horizontal) s
  else setAreas (areas .vertical) s

/-! ## The instructions -/

/-- BANK_SELECT (R131). -/
def execBankSelect (_address : Addr) (value : Byte) (s : State) : Outcome :=
  whenRunning s { s with command := value }

/-- SF0 (R133). -/
def execBankDataSf0 (_address : Addr) (value : Byte) (s : State) : Outcome :=
  whenRunning s (write2k 0 value s)

/-- SF1 (R134). -/
def execBankDataSf1 (_address : Addr) (value : Byte) (s : State) : Outcome :=
  whenRunning s (write2k 1 value s)

/-- SF2 (R135). -/
def execBankDataSf2 (_address : Addr) (value : Byte) (s : State) : Outcome :=
  whenRunning s (write1k 0 value s)

/-- SF3 (R136). -/
def execBankDataSf3 (_address : Addr) (value : Byte) (s : State) : Outcome :=
  whenRunning s (write1k 1 value s)

/-- SF4 (R137). -/
def execBankDataSf4 (_address : Addr) (value : Byte) (s : State) : Outcome :=
  whenRunning s (write1k 2 value s)

/-- SF5 (R138). -/
def execBankDataSf5 (_address : Addr) (value : Byte) (s : State) : Outcome :=
  whenRunning s (write1k 3 value s)

/-- SF6 (R139). -/
def execBankDataSf6 (_address : Addr) (value : Byte) (s : State) : Outcome :=
  whenRunning s (writePrgPair value s)

/-- SF7 (R140). -/
def execBankDataSf7 (_address : Addr) (value : Byte) (s : State) : Outcome :=
  whenRunning s (prgRequest 1 1 (bankTarget value) s)

/-- MIRROR (R141). -/
def execMirror (_address : Addr) (value : Byte) (s : State) : Outcome :=
  whenRunning s (mirrorWrite value s)

/-- PRGRAM_PROTECT: "acknowledged but not enforced", no state change (R142). -/
def execPrgramProtect (_address : Addr) (_value : Byte) (s : State) : Outcome :=
  whenRunning s s

/-- IRQ_LATCH (R143). -/
def execIrqLatch (_address : Addr) (value : Byte) (s : State) : Outcome :=
  whenRunning s { s with irqLatch := value }

/-- IRQ_RELOAD (R144). -/
def execIrqReload (_address : Addr) (_value : Byte) (s : State) : Outcome :=
  whenRunning s { s with irqReloadPending := true }

/-- IRQ_DISABLE (R145). -/
def execIrqDisable (_address : Addr) (_value : Byte) (s : State) : Outcome :=
  whenRunning s (clearIRQ { s with irqEnabled := false })

/-- IRQ_ENABLE (R146). -/
def execIrqEnable (_address : Addr) (_value : Byte) (s : State) : Outcome :=
  whenRunning s { s with irqEnabled := true }

/-- IGNORED: no state change (R147). -/
def execIgnored (_address : Addr) (_value : Byte) (s : State) : Outcome :=
  whenRunning s s

end Sys2Proof.Machine
end

