-- ==== Sys2Proof/Machine/Ticks.lean ====
section
/-! DEFINITION. The meanings of the ticks (42_irq_counter.md). -/

namespace Sys2Proof.Machine

/-- The state after a high tick: an update where no delay is pending, and the window starts again
(R171). -/
def highTick (s : State) : State :=
  if s.irqEdgeFilterDelay = 0 then { counterUpdate s with irqEdgeFilterDelay := 7 }
  else { s with irqEdgeFilterDelay := 7 }

/-- The state after a low tick: a pending delay goes down by one (R172). -/
def lowTick (s : State) : State :=
  if s.irqEdgeFilterDelay = 0 then s
  else { s with irqEdgeFilterDelay := s.irqEdgeFilterDelay - 1 }

/-- TICK_LOW (R172). -/
def execTickLow (_p : Addr) (s : State) : Outcome := whenRunning s (lowTick s)

/-- TICK_HIGH (R171). -/
def execTickHigh (_p : Addr) (s : State) : Outcome := whenRunning s (highTick s)

end Sys2Proof.Machine
end

