-- ==== Sys2Proof/Machine/Dispatch.lean ====
section
/-! DEFINITION. One arm per instruction: the meaning it calls. -/

namespace Sys2Proof.Machine

def exec (i : Instr) (s : State) : Host.Outcome State Fault Refusal :=
  match i with
  | .bankSelect a v => Sys2Proof.Machine.execBankSelect a v s
  | .bankDataSf0 a v => Sys2Proof.Machine.execBankDataSf0 a v s
  | .bankDataSf1 a v => Sys2Proof.Machine.execBankDataSf1 a v s
  | .bankDataSf2 a v => Sys2Proof.Machine.execBankDataSf2 a v s
  | .bankDataSf3 a v => Sys2Proof.Machine.execBankDataSf3 a v s
  | .bankDataSf4 a v => Sys2Proof.Machine.execBankDataSf4 a v s
  | .bankDataSf5 a v => Sys2Proof.Machine.execBankDataSf5 a v s
  | .bankDataSf6 a v => Sys2Proof.Machine.execBankDataSf6 a v s
  | .bankDataSf7 a v => Sys2Proof.Machine.execBankDataSf7 a v s
  | .mirror a v => Sys2Proof.Machine.execMirror a v s
  | .prgramProtect a v => Sys2Proof.Machine.execPrgramProtect a v s
  | .irqLatch a v => Sys2Proof.Machine.execIrqLatch a v s
  | .irqReload a v => Sys2Proof.Machine.execIrqReload a v s
  | .irqDisable a v => Sys2Proof.Machine.execIrqDisable a v s
  | .irqEnable a v => Sys2Proof.Machine.execIrqEnable a v s
  | .ignored a v => Sys2Proof.Machine.execIgnored a v s
  | .tickLow p => Sys2Proof.Machine.execTickLow p s
  | .tickHigh p => Sys2Proof.Machine.execTickHigh p s
  | .initialise d => Sys2Proof.Machine.execInitialise d s
  | .inject => Sys2Proof.Machine.execInject s
  | .powerUp => Sys2Proof.Machine.execPowerUp s
  | .getNVRAMSize => Sys2Proof.Machine.execGetNVRAMSize s
  | .getNVRAM => Sys2Proof.Machine.execGetNVRAM s
  | .setNVRAM data => Sys2Proof.Machine.execSetNVRAM data s
  | .setMirroringHorizontal => Sys2Proof.Machine.execSetMirroringHorizontal s
  | .setMirroringVertical => Sys2Proof.Machine.execSetMirroringVertical s
  | .setMirroringFourScreen => Sys2Proof.Machine.execSetMirroringFourScreen s
  | .setMirroringSingleScreen area => Sys2Proof.Machine.execSetMirroringSingleScreen area s
  | .setMirroringAreas a0 a1 a2 a3 => Sys2Proof.Machine.execSetMirroringAreas a0 a1 a2 a3 s

end Sys2Proof.Machine
end

