-- ==== Sys2Proof/Machine/Windows.lean ====
section
/-! DEFINITION. The reference translation of window accesses (20_memory.md R52 to R55). -/

namespace Sys2Proof.Machine

/-- The program byte behind a CPU address 0x8000..0xFFFF (R52). -/
def prgIndex (s : State) (a : Nat) : Nat :=
  s.prgMap[Fin.ofNat 4 ((a - 0x8000) >>> 13)] * 8192 + a % 0x2000

/-- The program-RAM byte behind a CPU address 0x6000..0x7FFF while unit `u` is mapped (R53). -/
def prgRamIndex (u a : Nat) : Nat := u * 8192 + a % 0x2000

/-- `p & 0x3FFF`. -/
def ppuWindow (p : Nat) : Nat := p % 0x4000

/-- The graphics byte behind a PPU address 0x0000..0x1FFF (R54). -/
def chrIndex (s : State) (p : Nat) : Nat :=
  s.chrMap[Fin.ofNat 8 ((p % 0x2000) >>> 10)] * 1024 + p % 0x400

/-- The graphics storage: ROM where there is any, else RAM (R54; 40_bank_window.md R118). -/
def chrSpace (d : Descriptor) : Space := if d.chrROMSize > 0 then .chrROM else .chrRAM

/-- The nametable slot of a PPU address 0x2000..0x3EFF (R55). -/
def ntSlot (p : Nat) : Fin 4 := Fin.ofNat 4 ((ppuWindow p - 0x2000) >>> 10)

/-- The area and offset a nametable access goes to (R55). -/
def ntReply (s : State) (p : Nat) : Reply := .nametable s.ntMap[ntSlot p] (p % 0x400)

/-- MR (R52, R53); elsewhere, and without program RAM, nothing of the block answers. -/
def cpuRead (a : Nat) (s : State) : Outcome :=
  if 0x8000 ≤ a then memRead .prgROM (prgIndex s a) s
  else if 0x6000 ≤ a then
    match s.prgRamMap with
    | some u => memRead .prgRAM (prgRamIndex u a) s
    | none => .next (s.answer .notOurs)
  else .next (s.answer .notOurs)

/-- MW, the storage side of a CPU write: only program RAM takes it, and nothing blocks it (R53); a
write from 0x8000 on "reaches no storage" (R52). -/
def cpuStore (a : Nat) (v : Byte) (s : State) : Outcome :=
  if 0x6000 ≤ a ∧ a < 0x8000 then
    match s.prgRamMap with
    | some u => memWrite .prgRAM (prgRamIndex u a) v s
    | none => .next s
  else .next s

/-- PR (R54, R55). -/
def ppuRead (p : Nat) (s : State) : Outcome :=
  if ppuWindow p < 0x2000 then memRead (chrSpace s.cfg.descriptor) (chrIndex s p) s
  else if ppuWindow p < 0x3F00 then .next (s.answer (ntReply s p))
  else .next (s.answer .notOurs)

/-- A PPU write: graphics RAM takes it, graphics ROM does not (R54); a nametable write goes to an area
of the collaborator (R55). -/
def ppuStore (p : Nat) (v : Byte) (s : State) : Outcome :=
  if ppuWindow p < 0x2000 then
    match chrSpace s.cfg.descriptor with
    | .chrRAM => memWrite .chrRAM (chrIndex s p) v s
    | _ => .next s
  else if ppuWindow p < 0x3F00 then .next (s.answer (ntReply s p))
  else .next s

/-- An access with its operands checked against the bus widths (30_encoding.md R91), once there is a
descriptor (log 9). -/
def runAccess (x : Access) (s : State) : Outcome :=
  whenInitialized s
    (match x with
    | .cpuRead a => if 0xFFFF < a then .refused (.badOperand .cpuAddressOutOfRange) else cpuRead a s
    | .cpuStore a v =>
      if 0xFFFF < a then .refused (.badOperand .cpuAddressOutOfRange)
      else if 0xFF < v then .refused (.badOperand .dataValueOutOfRange)
      else cpuStore a (BitVec.ofNat 8 v) s
    | .ppuRead p => if 0xFFFF < p then .refused (.badOperand .ppuAddressOutOfRange) else ppuRead p s
    | .ppuStore p v =>
      if 0xFFFF < p then .refused (.badOperand .ppuAddressOutOfRange)
      else if 0xFF < v then .refused (.badOperand .dataValueOutOfRange)
      else ppuStore p (BitVec.ofNat 8 v) s)

end Sys2Proof.Machine
end

