-- ==== Sys2Proof/Machine/Events.lean ====
section
/-! DEFINITION. Taking the driver's next call (10_state.md R22; 20_memory.md R62). -/

namespace Sys2Proof.Machine

/-- The state once the driver has the calls `l` still to make. -/
def State.withPending (s : State) (l : List Event) : State := { s with pending := l }

/-- A transaction: decoded with the latched command (30_encoding.md R85), then executed. -/
def runTransaction (t : Transaction) (s : State) : Outcome :=
  match decode s.command t with
  | .ok i => exec i s
  | .error e => .refused (.badOperand e)

def runEvent (e : Event) (s : State) : Outcome :=
  match e with
  | .transaction t => runTransaction t s
  | .access x => runAccess x s

/-- The oldest pending call is taken off the list and run on what is left (00_scope.md R10, R12). -/
def runNext (s : State) : Outcome :=
  match s.pending with
  | [] => .refused .noTransaction
  | e :: rest => runEvent e (s.withPending rest)

/-- A table word's call becomes the driver's next one. -/
def queueFirst (s : State) (nbits w : Nat) : State :=
  match tableTransaction nbits w with
  | none => s
  | some t => s.withPending (.transaction t :: s.pending)

end Sys2Proof.Machine
end

