-- ==== Sys2Proof/Machine/Step.lean ====
section
/-! DEFINITION. One step of the machine: one call of the driver. -/

namespace Sys2Proof.Machine

/-- One transaction or window access (00_scope.md R10, R12). -/
def step (s : State) : Host.Outcome State Fault Refusal := runNext s

/-- `s` with the table word's call as the driver's next one (log 13). -/
def State.withFetchWord (s : State) (nbits w : Nat) : State := queueFirst s nbits w

end Sys2Proof.Machine
end

