-- ==== Sys2Proof/Safety.lean ====
section
/-! DEFINITION. What claims about a safe run are stated in: the invariant of the block and runs of
instructions. -/

namespace Sys2Proof.Machine

/-- `t` is the buffer a RAM of `size` bytes has: absent for size 0, else canonical with that size
(10_state.md R35, R36). -/
def ramFits (size : Nat) : Option Memory → Prop
  | none => size = 0
  | some m => 0 < size ∧ m.size = size ∧ m.wf = true

/-- Every entry of a bank table names a unit of its storage (10_state.md R32, R34). -/
def tableFits {w : Nat} (size e : Nat) (t : Vector Nat w) : Prop :=
  ∀ i : Fin w, t[i] ≤ maxUnit size e

/-- The invariant of a block that has a descriptor: the descriptor is admitted (00_scope.md R6), the
bank tables stay inside their storages (10_state.md R32, R33, R34), the RAM buffers have their sizes
(R35, R36), and once running the top program unit is the last bank (70_reset_and_hazards.md R261). -/
structure BlockInv (s : State) : Prop where
  admitted  : s.cfg.descriptor.wellFormed = true
  prgMap    : tableFits s.cfg.descriptor.prgROMSize prgExp s.prgMap
  prgRamMap : ∀ u, s.prgRamMap = some u →
    0 < s.cfg.descriptor.prgRAMSize ∧ u ≤ maxUnit s.cfg.descriptor.prgRAMSize prgExp
  chrMap    : tableFits s.cfg.descriptor.chrPhys chrExp s.chrMap
  prgRAM    : ramFits s.cfg.descriptor.prgRAMSize s.prgRAM
  chrRAM    : ramFits s.cfg.descriptor.chrRAMSize s.chrRAM
  topUnit   : s.phase = .running → s.prgMap[3] = maxUnit s.cfg.descriptor.prgROMSize prgExp

/-- The invariant every step keeps: before `initialize` there is nothing to say. -/
def Inv (s : State) : Prop := s.phase ≠ .uninit → BlockInv s

/-- `mp = maxUnit(prgROMSize, 13)` (41_register_writes.md). -/
def State.mp (s : State) : Nat := (s.cfg.descriptor.prgROMSize - 1) >>> 13

/-- `mc = maxUnit(CHR_PHYS, 10)` (41_register_writes.md), with `CHR_PHYS` written out (40_bank_window.md
R118). -/
def State.mc (s : State) : Nat :=
  ((if 0 < s.cfg.descriptor.chrROMSize then s.cfg.descriptor.chrROMSize
    else s.cfg.descriptor.chrRAMSize) - 1) >>> 10

/-- A counter update happened between `s` and `t`, and the filter window starts again (R171, R173,
R174), with the new counter, the reload flag and the line written out. -/
def Updated (s t : State) : Prop :=
  ∃ new : Byte,
    new = (if s.irqCounter = 0 ∨ s.irqReloadPending = true then s.irqLatch else s.irqCounter - 1) ∧
    t = { s with
      irqCounter := new
      irqReloadPending := false
      irqEdgeFilterDelay := 7
      irqOut := s.irqOut || (s.irqEnabled && decide (new = 0) &&
        (!s.cfg.altMode || decide (s.irqCounter ≠ 0) || s.irqReloadPending)) }

/-- Only the ticks and register writes need the phase Running (10_state.md R38). -/
def isBusTransaction : Instr → Bool
  | .bankSelect _ _ => true
  | .bankDataSf0 _ _ => true
  | .bankDataSf1 _ _ => true
  | .bankDataSf2 _ _ => true
  | .bankDataSf3 _ _ => true
  | .bankDataSf4 _ _ => true
  | .bankDataSf5 _ _ => true
  | .bankDataSf6 _ _ => true
  | .bankDataSf7 _ _ => true
  | .mirror _ _ => true
  | .prgramProtect _ _ => true
  | .irqLatch _ _ => true
  | .irqReload _ _ => true
  | .irqDisable _ _ => true
  | .irqEnable _ _ => true
  | .ignored _ _ => true
  | .tickLow _ => true
  | .tickHigh _ => true
  | .initialise _ => false
  | .inject => false
  | .powerUp => false
  | .getNVRAMSize => false
  | .getNVRAM => false
  | .setNVRAM _ => false
  | .setMirroringHorizontal => false
  | .setMirroringVertical => false
  | .setMirroringFourScreen => false
  | .setMirroringSingleScreen _ => false
  | .setMirroringAreas _ _ _ _ => false

/-- A TICK_LOW. -/
def isLowTick : Instr → Bool
  | .bankSelect _ _ => false
  | .bankDataSf0 _ _ => false
  | .bankDataSf1 _ _ => false
  | .bankDataSf2 _ _ => false
  | .bankDataSf3 _ _ => false
  | .bankDataSf4 _ _ => false
  | .bankDataSf5 _ _ => false
  | .bankDataSf6 _ _ => false
  | .bankDataSf7 _ _ => false
  | .mirror _ _ => false
  | .prgramProtect _ _ => false
  | .irqLatch _ _ => false
  | .irqReload _ _ => false
  | .irqDisable _ _ => false
  | .irqEnable _ _ => false
  | .ignored _ _ => false
  | .tickLow _ => true
  | .tickHigh _ => false
  | .initialise _ => false
  | .inject => false
  | .powerUp => false
  | .getNVRAMSize => false
  | .getNVRAM => false
  | .setNVRAM _ => false
  | .setMirroringHorizontal => false
  | .setMirroringVertical => false
  | .setMirroringFourScreen => false
  | .setMirroringSingleScreen _ => false
  | .setMirroringAreas _ _ _ _ => false

/-- What starts the filter window anew: a TICK_HIGH, or the reset in `powerUp()`. -/
def restartsWindow : Instr → Bool
  | .bankSelect _ _ => false
  | .bankDataSf0 _ _ => false
  | .bankDataSf1 _ _ => false
  | .bankDataSf2 _ _ => false
  | .bankDataSf3 _ _ => false
  | .bankDataSf4 _ _ => false
  | .bankDataSf5 _ _ => false
  | .bankDataSf6 _ _ => false
  | .bankDataSf7 _ _ => false
  | .mirror _ _ => false
  | .prgramProtect _ _ => false
  | .irqLatch _ _ => false
  | .irqReload _ _ => false
  | .irqDisable _ _ => false
  | .irqEnable _ _ => false
  | .ignored _ _ => false
  | .tickLow _ => false
  | .tickHigh _ => true
  | .initialise _ => false
  | .inject => false
  | .powerUp => true
  | .getNVRAMSize => false
  | .getNVRAM => false
  | .setNVRAM _ => false
  | .setMirroringHorizontal => false
  | .setMirroringVertical => false
  | .setMirroringFourScreen => false
  | .setMirroringSingleScreen _ => false
  | .setMirroringAreas _ _ _ _ => false

/-- Between `s` and `t` the instruction `i`, which is not `powerUp`, changed each field only if it is one
of the field's writers (10_state.md R20, column "written by"). -/
structure ChangedByWriters (i : Instr) (s t : State) : Prop where
  command : t.command ≠ s.command → ∃ a v, i = .bankSelect a v
  irqLatch : t.irqLatch ≠ s.irqLatch → ∃ a v, i = .irqLatch a v
  irqCounter : t.irqCounter ≠ s.irqCounter → ∃ p, i = .tickHigh p
  irqReloadPending : t.irqReloadPending ≠ s.irqReloadPending →
    (∃ a v, i = .irqReload a v) ∨ ∃ p, i = .tickHigh p
  irqEnabled : t.irqEnabled ≠ s.irqEnabled →
    (∃ a v, i = .irqDisable a v) ∨ ∃ a v, i = .irqEnable a v
  irqEdgeFilterDelay : t.irqEdgeFilterDelay ≠ s.irqEdgeFilterDelay →
    (∃ p, i = .tickHigh p) ∨ ∃ p, i = .tickLow p
  irqOut : t.irqOut ≠ s.irqOut → (∃ a v, i = .irqDisable a v) ∨ ∃ p, i = .tickHigh p
  prgMap : t.prgMap ≠ s.prgMap → (∃ a v, i = .bankDataSf6 a v) ∨ ∃ a v, i = .bankDataSf7 a v
  prgRamMap : t.prgRamMap = s.prgRamMap
  chrMap : t.chrMap ≠ s.chrMap → ∃ a v, i = .bankDataSf0 a v ∨ i = .bankDataSf1 a v ∨
    i = .bankDataSf2 a v ∨ i = .bankDataSf3 a v ∨ i = .bankDataSf4 a v ∨ i = .bankDataSf5 a v
  ntMap : t.ntMap ≠ s.ntMap → (∃ a v, i = .mirror a v) ∨ i = .setMirroringHorizontal ∨
    i = .setMirroringVertical ∨ i = .setMirroringFourScreen ∨
    (∃ x, i = .setMirroringSingleScreen x) ∨ ∃ x y z w, i = .setMirroringAreas x y z w
  prgRAM : t.prgRAM ≠ s.prgRAM → ∃ data, i = .setNVRAM data
  chrRAM : t.chrRAM ≠ s.chrRAM → ∃ data, i = .setNVRAM data
  phase : t.phase = s.phase
  cfg : t.cfg = s.cfg
  reply : t.reply ≠ s.reply → i = .getNVRAMSize ∨ i = .getNVRAM
  pending : t.pending = s.pending
  draw : t.draw = s.draw

/-- The instructions one after another, stopping at the first that does not answer a next state. -/
def execAll : List Instr → State → Outcome
  | [], s => .next s
  | i :: rest, s =>
    match exec i s with
    | .next t => execAll rest t
    | .fault f => .fault f
    | .refused r => .refused r

end Sys2Proof.Machine
end

