-- ==== Sys2Proof/Certificates/Slice0/Obligations.lean ====
section
/-! DEFINITION. The statements for the provers. -/

open Sys2Proof Sys2Proof.Machine

/-! ## Encoding -/

/-- Decoding an encoded well-formed instruction gives it back, with every operand, while the latched
command selects its row (30_encoding.md R81, R82, R85, R87, R88). -/
def Obligations.DecodeOfEncodeIsIdentity : Prop :=
  ∀ (c : Byte) (i : Instr), i.wellFormed = true → i.selectedBy c = true →
    decode c (encode i) = .ok i

/-- A call that decodes is the call of the instruction it decodes to, so the decoder drops no bit; the
instruction is well formed (an `initialize` exactly when its descriptor is admitted) and selected. -/
def Obligations.EncodeOfDecodeIsIdentity : Prop :=
  ∀ (c : Byte) (t : Transaction) (i : Instr), decode c t = .ok i →
    encode i = t ∧ i.selectedBy c = true ∧
      (i.wellFormed = true ∨ ∃ d, i = .initialise d ∧ d.wellFormed = false)

/-- The rows of the opcode table do not overlap, and the row that covers a CPUW word is the slot its
address selects (30_encoding.md R81, R83). -/
def Obligations.TableRowsAgreeWithSlots : Prop :=
  ∀ (a : Addr) (v : Byte), ∀ r ∈ cpuwRows, r.covers (cpuwWord a v) = true ↔ slotOf a = r.slot

/-- The slot table: each masked address selects its slot, and every address with bit 15 clear is
ignored (R83). -/
def Obligations.SlotTableSelectsInstruction : Prop :=
  ∀ (c v : Byte) (a : Addr),
    (a &&& 0xE001 = 0x8000 → decode c (.cpuw a.toNat v.toNat) = .ok (.bankSelect a v)) ∧
    (a &&& 0xE001 = 0x8001 → decode c (.cpuw a.toNat v.toNat) = .ok (decodeBankData c a v)) ∧
    (a &&& 0xE001 = 0xA000 → decode c (.cpuw a.toNat v.toNat) = .ok (.mirror a v)) ∧
    (a &&& 0xE001 = 0xA001 → decode c (.cpuw a.toNat v.toNat) = .ok (.prgramProtect a v)) ∧
    (a &&& 0xE001 = 0xC000 → decode c (.cpuw a.toNat v.toNat) = .ok (.irqLatch a v)) ∧
    (a &&& 0xE001 = 0xC001 → decode c (.cpuw a.toNat v.toNat) = .ok (.irqReload a v)) ∧
    (a &&& 0xE001 = 0xE000 → decode c (.cpuw a.toNat v.toNat) = .ok (.irqDisable a v)) ∧
    (a &&& 0xE001 = 0xE001 → decode c (.cpuw a.toNat v.toNat) = .ok (.irqEnable a v)) ∧
    (a.getLsbD 15 = false → decode c (.cpuw a.toNat v.toNat) = .ok (.ignored a v))

/-- A bank-data write runs the sub-function `command[2:0]` (R132). -/
def Obligations.BankDataDispatchesOnLatchedCommand : Prop :=
  ∀ (c v : Byte) (a : Addr), a &&& 0xE001 = 0x8001 →
    (c.toNat % 8 = 0 → decode c (.cpuw a.toNat v.toNat) = .ok (.bankDataSf0 a v)) ∧
    (c.toNat % 8 = 1 → decode c (.cpuw a.toNat v.toNat) = .ok (.bankDataSf1 a v)) ∧
    (c.toNat % 8 = 2 → decode c (.cpuw a.toNat v.toNat) = .ok (.bankDataSf2 a v)) ∧
    (c.toNat % 8 = 3 → decode c (.cpuw a.toNat v.toNat) = .ok (.bankDataSf3 a v)) ∧
    (c.toNat % 8 = 4 → decode c (.cpuw a.toNat v.toNat) = .ok (.bankDataSf4 a v)) ∧
    (c.toNat % 8 = 5 → decode c (.cpuw a.toNat v.toNat) = .ok (.bankDataSf5 a v)) ∧
    (c.toNat % 8 = 6 → decode c (.cpuw a.toNat v.toNat) = .ok (.bankDataSf6 a v)) ∧
    (c.toNat % 8 = 7 → decode c (.cpuw a.toNat v.toNat) = .ok (.bankDataSf7 a v))

/-- A tick is a high one exactly when bit 12 of its value is 1 (R87). -/
def Obligations.TickDecodesByBitTwelve : Prop :=
  ∀ (c : Byte) (p : Addr),
    decode c (.pput p.toNat) = .ok (if p.toNat / 4096 % 2 = 1 then .tickHigh p else .tickLow p)

/-- Nine words and calls written out from the spec: `0x800046`, `0x800103`, SF6's call of P1 step 2,
`0xA00180`, `0xC00002`, `0xE00000`, `0xFFFF00`, and the address values `0x0FFF` and `0xF000`
(95_test_vectors.md). A table word of BANK_DATA is read with `command` at its reset value 0 (log 13). -/
def Obligations.SampleWordsDecode : Prop :=
  decodeTableWord 24 0x800046 = some (.bankSelect 0x8000 0x46) ∧
  decodeTableWord 24 0x800103 = some (.bankDataSf0 0x8001 0x03) ∧
  decode 0x06 (.cpuw 0x8001 0x03) = .ok (.bankDataSf6 0x8001 0x03) ∧
  decodeTableWord 24 0xA00180 = some (.prgramProtect 0xA001 0x80) ∧
  decodeTableWord 24 0xC00002 = some (.irqLatch 0xC000 0x02) ∧
  decodeTableWord 24 0xE00000 = some (.irqDisable 0xE000 0x00) ∧
  decodeTableWord 24 0xFFFF00 = some (.irqEnable 0xFFFF 0x00) ∧
  decodeTableWord 16 0x0FFF = some (.tickLow 0x0FFF) ∧
  decodeTableWord 16 0xF000 = some (.tickHigh 0xF000)

/-! ## The step -/

/-- When the next call decodes to `i`, the step takes the call off the driver's list and is `exec i` on
what is left; when the next call is a window access, the step runs that access. The list is the model's
choice (log 1, log 2). -/
def Obligations.StepRunsDecodedInstruction : Prop :=
  ∀ (s : State) (rest : List Event),
    (∀ (t : Transaction) (i : Instr), s.pending = .transaction t :: rest →
      decode s.command t = .ok i → step s = exec i { s with pending := rest }) ∧
    (∀ x : Access, s.pending = .access x :: rest → step s = runAccess x { s with pending := rest })

/-- A table word placed by `withFetchWord` is the next instruction the step runs, on `s` itself. Which
call a table word stands for is the model's choice (log 13). -/
def Obligations.PlacedWordRunsNext : Prop :=
  ∀ (s : State) (a : Addr) (v : Byte),
    step (s.withFetchWord 24 (cpuwWord a v).toNat) = exec (decodeWrite s.command a v) s ∧
    step (s.withFetchWord 16 a.toNat) = exec (decodeTick a) s

/-- An operand outside its type is refused by the step, not truncated (R91). -/
def Obligations.OutOfRangeOperandsAreRefused : Prop :=
  ∀ (s : State) (rest : List Event),
    (∀ a v : Nat, s.pending = .transaction (.cpuw a v) :: rest → 0xFFFF < a ∨ 0xFF < v →
      ∃ e, step s = .refused (.badOperand e)) ∧
    (∀ p : Nat, s.pending = .transaction (.pput p) :: rest → 0xFFFF < p →
      ∃ e, step s = .refused (.badOperand e))

/-- Every step that is taken takes exactly the oldest call off the driver's list (one step per
transaction, 00_scope.md R12). That the calls stand in a list of the state is the model's choice
(log 1). -/
def Obligations.StepConsumesOneCall : Prop :=
  ∀ s t : State, step s = .next t → ∃ e, s.pending = e :: t.pending

/-! ## Bank arithmetic -/

/-- For a storage of `2^k` bytes in units of `2^e` bytes, every destination bank wraps modulo the
number of units; `-1` is the last unit, `-2` the second-to-last where there are two, and with one unit
every bank gives 0 (R119). -/
def Obligations.DestinationBanksWrap : Prop :=
  ∀ (k e : Nat), e ≤ k →
    (∀ d : Int, ((wrap d (maxUnit (2 ^ k) e) : Nat) : Int) = d % (2 ^ k >>> e : Nat)) ∧
    wrap (-1) (maxUnit (2 ^ k) e) = 2 ^ k >>> e - 1 ∧
    (2 ≤ 2 ^ k >>> e → wrap (-2) (maxUnit (2 ^ k) e) = 2 ^ k >>> e - 2) ∧
    (2 ^ k >>> e = 1 → ∀ d : Int, wrap d (maxUnit (2 ^ k) e) = 0)

/-- The wrap is the two's-complement bitwise and with the mask `2^k - 1`, at every width that holds
the mask (00_scope.md R8; 40_bank_window.md R111). -/
def Obligations.WrapIsTwosComplementAnd : Prop :=
  ∀ (w k : Nat) (d : Int), k ≤ w →
    wrap d (2 ^ k - 1) = (BitVec.ofInt w d &&& BitVec.ofNat w (2 ^ k - 1)).toNat

/-! ## Register writes -/

/-- BANK_SELECT stores the whole byte and changes nothing else, no bank table either (R131). -/
def Obligations.BankSelectLatchesCommand : Prop :=
  ∀ (s : State) (a : Addr) (v : Byte), s.phase = .running →
    exec (.bankSelect a v) s = .next { s with command := v }

/-- SF0: the pair `2w`, `2w + 1` for `w = 2 * command[7]` gets `2b` and `2b + 1` for
`b = V >> CHR2K_TARGET_SHIFT`, masked (R133); SF1: the same for `w = 2 * command[7] + 1` (R134). For a
command that does not select the row, that the row's own window is written is the model's (log 15). -/
def Obligations.TwoKiBGraphicsBanks : Prop :=
  ∀ (s : State) (a : Addr) (v : Byte), s.phase = .running → s.cfg.descriptor.wellFormed = true →
    (∃ m : Vector Nat 8, exec (.bankDataSf0 a v) s = .next { s with chrMap := m } ∧
      ∀ u : Fin 8, m[u] =
        if u.val = 2 * (2 * (s.command.toNat / 128)) then
          2 * (v.toNat >>> s.cfg.chr2kTargetShift) &&& s.mc
        else if u.val = 2 * (2 * (s.command.toNat / 128)) + 1 then
          (2 * (v.toNat >>> s.cfg.chr2kTargetShift) + 1) &&& s.mc
        else s.chrMap[u]) ∧
    (∃ m : Vector Nat 8, exec (.bankDataSf1 a v) s = .next { s with chrMap := m } ∧
      ∀ u : Fin 8, m[u] =
        if u.val = 2 * (2 * (s.command.toNat / 128) + 1) then
          2 * (v.toNat >>> s.cfg.chr2kTargetShift) &&& s.mc
        else if u.val = 2 * (2 * (s.command.toNat / 128) + 1) + 1 then
          (2 * (v.toNat >>> s.cfg.chr2kTargetShift) + 1) &&& s.mc
        else s.chrMap[u])

/-- SF2 to SF5: the unit `{!command[7], k}` for `k = 0, 1, 2, 3` gets `V`, masked (R135 to R138). For a
command that does not select the row, that the row's own unit is written is the model's (log 15). -/
def Obligations.OneKiBGraphicsBanks : Prop :=
  ∀ (s : State) (a : Addr) (v : Byte), s.phase = .running → s.cfg.descriptor.wellFormed = true →
    ∀ p ∈ [(Instr.bankDataSf2 a v, 0), (Instr.bankDataSf3 a v, 1), (Instr.bankDataSf4 a v, 2),
        (Instr.bankDataSf5 a v, 3)],
      ∃ m : Vector Nat 8, exec p.1 s = .next { s with chrMap := m } ∧
        ∀ u : Fin 8, m[u] =
          if u.val = 4 * (1 - s.command.toNat / 128) + p.2 then v.toNat &&& s.mc else s.chrMap[u]

/-- The window formulas of the source, `(c7 << 1) | command[0]` for sub-functions 0 and 1 and
`((!c7) << 2) | ((command - 2) & 3)` for 2 to 5, are the windows the meanings write. -/
def Obligations.SourceWindowFormulasAgree : Prop :=
  ∀ c : Byte,
    (c.toNat % 8 < 2 →
      chr2kWindow c (c.toNat % 8) = ((c >>> 7).toNat <<< 1) ||| (c &&& 1).toNat) ∧
    (2 ≤ c.toNat % 8 → c.toNat % 8 < 6 →
      chr1kUnit c (c.toNat % 8 - 2) = ((~~~c >>> 7).toNat <<< 2) ||| ((c - 2) &&& 3).toNat)

/-- SF6: unit `2 * command[6]` gets `V` and the complementary unit the second-to-last bank, masked
(R139). SF7: program unit 1 gets `V`, masked (R140). -/
def Obligations.ProgramBanks : Prop :=
  ∀ (s : State) (a : Addr) (v : Byte), s.phase = .running → s.cfg.descriptor.wellFormed = true →
    (∃ m : Vector Nat 4, exec (.bankDataSf6 a v) s = .next { s with prgMap := m } ∧
      ∀ u : Fin 4, m[u] =
        if u.val = 2 * (s.command.toNat / 64 % 2) then v.toNat &&& s.mp
        else if u.val = 2 * (1 - s.command.toNat / 64 % 2) then s.mp - 1
        else s.prgMap[u]) ∧
    (∃ m : Vector Nat 4, exec (.bankDataSf7 a v) s = .next { s with prgMap := m } ∧
      ∀ u : Fin 4, m[u] = if u.val = 1 then v.toNat &&& s.mp else s.prgMap[u])

/-- Two calls: a select, then a data write, which runs the sub-function just latched, however often it
is repeated (R132; 30_encoding.md R85). -/
def Obligations.SelectThenDataRunsLatchedSubFunction : Prop :=
  ∀ (s : State) (k v : Byte) (rest : List Event), s.phase = .running →
    s.pending = .transaction (.cpuw 0x8000 k.toNat) :: .transaction (.cpuw 0x8001 v.toNat) :: rest →
    ∃ t u : State, step s = .next t ∧ t.command = k ∧ t.prgMap = s.prgMap ∧ t.chrMap = s.chrMap ∧
      step t = .next u ∧ exec (decodeBankData k 0x8001 v) { t with pending := rest } = .next u ∧
      u.command = k ∧ u.pending = rest

/-- MIRROR: no effect on a four-screen cartridge; otherwise `V[0]` selects Vertical (0) or Horizontal
(1) (R141). -/
def Obligations.MirrorWriteSelectsMirroring : Prop :=
  ∀ (s : State) (a : Addr) (v : Byte), s.phase = .running →
    exec (.mirror a v) s = .next
      (if s.cfg.descriptor.mirroring = .fourScreen then s
       else if v.toNat % 2 = 0 then { s with ntMap := #v[0, 1, 0, 1] }
       else { s with ntMap := #v[0, 0, 1, 1] })

/-- PRGRAM_PROTECT (R142) and an ignored write (R147) leave the whole state as it was, and so does
`inject` (43_host_interface.md R201), in every phase by the model's reading (log 10). -/
def Obligations.CallsWithoutEffect : Prop :=
  ∀ (s : State) (a : Addr) (v : Byte),
    (s.phase = .running →
      exec (.prgramProtect a v) s = .next s ∧ exec (.ignored a v) s = .next s) ∧
    exec .inject s = .next s

/-- IRQ_LATCH stores the reload value (R143) and IRQ_RELOAD sets the reload request (R144); neither
changes anything else. -/
def Obligations.LatchAndReloadWrites : Prop :=
  ∀ (s : State) (a : Addr) (v : Byte), s.phase = .running →
    exec (.irqLatch a v) s = .next { s with irqLatch := v } ∧
    exec (.irqReload a v) s = .next { s with irqReloadPending := true }

/-- IRQ_DISABLE disables and clears the line (R145); IRQ_ENABLE enables and does not raise the line
(R146); neither changes anything else. -/
def Obligations.EnableAndDisableWrites : Prop :=
  ∀ (s : State) (a : Addr) (v : Byte), s.phase = .running →
    exec (.irqDisable a v) s = .next { s with irqEnabled := false, irqOut := false } ∧
    exec (.irqEnable a v) s = .next { s with irqEnabled := true }

/-- A register write or a tick while the phase is not Running is refused (10_state.md R38). -/
def Obligations.BusTransactionsNeedRunning : Prop :=
  ∀ (s : State) (i : Instr), isBusTransaction i = true → s.phase ≠ .running →
    exec i s = .refused .notRunning

/-! ## Ticks -/

/-- TICK_LOW lowers a pending delay by one, leaves 0 at 0, and changes nothing else (R172). -/
def Obligations.LowTickLowersDelay : Prop :=
  ∀ (s : State) (p : Addr), s.phase = .running →
    ∃ d : BitVec 3, d.toNat = s.irqEdgeFilterDelay.toNat - 1 ∧
      exec (.tickLow p) s = .next { s with irqEdgeFilterDelay := d }

/-- TICK_HIGH with a delay pending only starts the window again (R171). -/
def Obligations.FilteredHighTickRestartsWindow : Prop :=
  ∀ (s : State) (p : Addr), s.phase = .running → s.irqEdgeFilterDelay ≠ 0 →
    exec (.tickHigh p) s = .next { s with irqEdgeFilterDelay := 7 }

/-- TICK_HIGH with no delay pending updates the counter, checks the assertion condition with the old
counter and the reload request, clears the request and starts the window (R171, R173, R174, R175). -/
def Obligations.HighTickUpdatesCounter : Prop :=
  ∀ (s : State) (p : Addr), s.phase = .running → s.irqEdgeFilterDelay = 0 →
    ∃ t, exec (.tickHigh p) s = .next t ∧ Updated s t

/-- The two chip variants raise the line differently exactly when a counter at 0 is reloaded with 0 and
no request is pending (90_conflicts.md C4). -/
def Obligations.ChipVariantsDifferOnlyInEdgeCase : Prop :=
  ∀ (s n l : State) (p : Addr), s.phase = .running → s.irqEdgeFilterDelay = 0 →
    exec (.tickHigh p) { s with cfg := { s.cfg with altMode := false } } = .next n →
    exec (.tickHigh p) { s with cfg := { s.cfg with altMode := true } } = .next l →
    (n.irqOut ≠ l.irqOut ↔
      s.irqEnabled = true ∧ s.irqOut = false ∧ s.irqCounter = 0 ∧ s.irqReloadPending = false ∧
        s.irqLatch = 0) ∧
    n.irqCounter = l.irqCounter

/-- A high tick updates the counter exactly when at least 7 low ticks stand between it and the high tick
before it, whatever register writes and host calls stand there too; after a `powerUp` with no high tick
since, it updates the counter at once (R176; 70_reset_and_hazards.md R270). -/
def Obligations.EdgeCountsAfterSevenLows : Prop :=
  ∀ (s h m : State) (first : Instr) (q : Addr) (mid : List Instr), s.phase = .running →
    restartsWindow first = true → exec first s = .next h → (∀ i ∈ mid, restartsWindow i = false) →
    execAll mid h = .next m →
    ∃ t, exec (.tickHigh q) m = .next t ∧
      ((first = .powerUp ∨ 7 ≤ mid.countP isLowTick) → Updated m t) ∧
      ((first ≠ .powerUp ∧ mid.countP isLowTick < 7) → t = { m with irqEdgeFilterDelay := 7 })

/-- Seven low ticks and a high one, the pseudo-instruction `EDGE`, give exactly one counter update from
any state (R176). -/
def Obligations.EdgeUpdatesOnce : Prop :=
  ∀ s : State, s.phase = .running →
    ∃ t, execAll (List.replicate 7 (.tickLow 0x0000) ++ [.tickHigh 0x1000]) s = .next t ∧
      Updated s t

/-- The counter round trip (95_test_vectors.md S4, for every latch value): from a counter at 0 with the
interrupt enabled, `k` edges with `1 ≤ k ≤ latch` leave `latch - (k - 1)` in the counter and the line
low, and the next edge after the last of them leaves 0 and raises the line. -/
def Obligations.CounterRoundTripRaisesLine : Prop :=
  ∀ (s : State) (k : Nat), s.phase = .running → s.irqEnabled = true → s.irqOut = false →
    s.irqCounter = 0 → s.irqReloadPending = false → 1 ≤ k → k ≤ s.irqLatch.toNat + 1 →
    s.irqLatch ≠ 0 →
    ∃ t, execAll
        (List.replicate k (List.replicate 7 (Instr.tickLow 0x0000) ++ [.tickHigh 0x1000])).flatten s =
          .next t ∧
      t.irqCounter.toNat = s.irqLatch.toNat + 1 - k ∧
      (t.irqOut = true ↔ k = s.irqLatch.toNat + 1)

/-- A latch written after a reload request, before the edge, is the value loaded
(70_reset_and_hazards.md R267). -/
def Obligations.LatchAfterReloadRequestIsLoaded : Prop :=
  ∀ (s : State) (a b p : Addr) (v w : Byte), s.phase = .running → s.irqEdgeFilterDelay = 0 →
    ∃ r l t, exec (.irqReload a w) s = .next r ∧ r.irqCounter = s.irqCounter ∧
      exec (.irqLatch b v) r = .next l ∧ l.irqCounter = s.irqCounter ∧
      exec (.tickHigh p) l = .next t ∧ t.irqCounter = v ∧ t.irqReloadPending = false

/-! ## Host operations -/

/-- `initialize` copies an admitted descriptor, allocates each RAM exactly where its size is not 0, and
leaves the phase Initialized; the variant flags stay (R200; 10_state.md R29). -/
def Obligations.InitializeAllocates : Prop :=
  ∀ (s : State) (d : Descriptor), s.phase = .uninit → d.wellFormed = true →
    ∃ t, exec (.initialise d) s = .next t ∧ t.phase = .initialized ∧
      t.cfg = { s.cfg with descriptor := d } ∧
      (t.prgRAM = none ↔ d.prgRAMSize = 0) ∧ (∀ m, t.prgRAM = some m → m.size = d.prgRAMSize) ∧
      (t.chrRAM = none ↔ d.chrRAMSize = 0) ∧ (∀ m, t.chrRAM = some m → m.size = d.chrRAMSize) ∧
      t.pending = s.pending ∧ t.reply = s.reply

/-- The content of a RAM after `initialize` is free: every sequence of bytes is shown by some draw
(R200; 92_eei_decisions.md D15). -/
def Obligations.InitialRamIsAnyBytes : Prop :=
  ∀ (s : State) (d : Descriptor) (f g : Nat → Byte), s.phase = .uninit → d.wellFormed = true →
    ∃ (dr : Draw) (t : State), exec (.initialise d) { s with draw := dr } = .next t ∧
      (∀ a, a < d.prgRAMSize → t.byteAt .prgRAM a = some (f a)) ∧
      (∀ a, a < d.chrRAMSize → t.byteAt .chrRAM a = some (g a))

/-- `initialize` is refused outside phase Uninit and for a descriptor that is not admitted; the host
operations that need a descriptor are refused in phase Uninit (R200, R202, R204; 00_scope.md R6). -/
def Obligations.BootOrderRefusals : Prop :=
  ∀ (s : State) (d : Descriptor) (data : List Byte),
    (s.phase ≠ .uninit → exec (.initialise d) s = .refused .alreadyInitialized) ∧
    (s.phase = .uninit → d.wellFormed = false →
      exec (.initialise d) s = .refused .illFormedDescriptor) ∧
    (s.phase = .uninit → exec .powerUp s = .refused .notInitialized ∧
      exec .getNVRAMSize s = .refused .notInitialized ∧
      exec .getNVRAM s = .refused .notInitialized ∧
      exec (.setNVRAM data) s = .refused .notInitialized)

/-- The six items of the configuration check, each in the spec's words (00_scope.md R6), with the graphics
physical size `CHR_PHYS` written out (40_bank_window.md R118), for ROM ranges in the model's canonical
form (log 7). -/
def Obligations.AdmittedDescriptors : Prop :=
  ∀ d : Descriptor, d.romsCanonical = true →
    (d.wellFormed = true ↔
      ((∃ k, d.prgROMSize = 2 ^ k) ∧ 8192 ≤ d.prgROMSize) ∧
      ((∃ k, (if 0 < d.chrROMSize then d.chrROMSize else d.chrRAMSize) = 2 ^ k) ∧
        1024 ≤ (if 0 < d.chrROMSize then d.chrROMSize else d.chrRAMSize)) ∧
      ((d.prgRAMSize = 0 ∨ (∃ k, d.prgRAMSize = 2 ^ k) ∧ 8192 ≤ d.prgRAMSize) ∧
        (d.chrRAMSize = 0 ∨ (∃ k, d.chrRAMSize = 2 ^ k) ∧ 1024 ≤ d.chrRAMSize)) ∧
      (d.prgRAMSizeBattery ≤ d.prgRAMSize ∧ d.chrRAMSizeBattery ≤ d.chrRAMSize) ∧
      (d.prgRAMSizeBattery = 0 ∨ d.chrRAMSizeBattery = 0) ∧
      (d.prgROM.size = d.prgROMSize ∧ d.chrROM.size = d.chrROMSize))

/-- `powerUp` completes once there is a descriptor, and leaves the registers, the line, the bank tables
and the phase as `reset()` says, with the mirroring of the descriptor; the configuration, the driver's
calls, the answer and the draw stay (R202, R203; 70_reset_and_hazards.md R260, R261). -/
def Obligations.PowerUpResetsBlock : Prop :=
  ∀ s : State, s.phase ≠ .uninit → s.cfg.descriptor.wellFormed = true →
    ∃ t, exec .powerUp s = .next t ∧
      (t.command = 0 ∧ t.irqCounter = 0 ∧ t.irqLatch = 0 ∧ t.irqReloadPending = false ∧
        t.irqEnabled = false ∧ t.irqEdgeFilterDelay = 0 ∧ t.irqOut = false) ∧
      (∀ i : Fin 4, (t.prgMap[i] : Int) = ((i.val : Int) - 4) % ((s.mp : Int) + 1)) ∧
      t.prgMap[3] = s.mp ∧
      t.prgRamMap = (if s.cfg.descriptor.prgRAMSize = 0 then none else some 0) ∧
      (∀ i : Fin 8, t.chrMap[i] = i.val &&& s.mc) ∧
      (s.cfg.descriptor.mirroring = .horizontal → t.ntMap = #v[0, 0, 1, 1]) ∧
      (s.cfg.descriptor.mirroring = .vertical → t.ntMap = #v[0, 1, 0, 1]) ∧
      (s.cfg.descriptor.mirroring = .fourScreen → t.ntMap = #v[0, 1, 2, 3]) ∧
      (∀ x, s.cfg.descriptor.mirroring = .singleScreen x → t.ntMap = #v[x, x, x, x]) ∧
      t.phase = .running ∧ t.cfg = s.cfg ∧ t.pending = s.pending ∧ t.reply = s.reply ∧
      t.draw = s.draw

/-- `powerUp` keeps every byte of a battery-backed part and of the ROMs, and every other byte of a RAM
becomes 0 (R202; 60_exceptions.md R243). -/
def Obligations.PowerUpKeepsBatteryBytes : Prop :=
  ∀ s t : State, s.phase ≠ .uninit → exec .powerUp s = .next t → ∀ a : Nat,
    t.byteAt .prgROM a = s.byteAt .prgROM a ∧ t.byteAt .chrROM a = s.byteAt .chrROM a ∧
    t.byteAt .prgRAM a = (if a < s.cfg.descriptor.prgRAMSizeBattery then s.byteAt .prgRAM a
      else (s.byteAt .prgRAM a).map (fun _ => 0)) ∧
    t.byteAt .chrRAM a = (if a < s.cfg.descriptor.chrRAMSizeBattery then s.byteAt .chrRAM a
      else (s.byteAt .chrRAM a).map (fun _ => 0))

/-- The state after reset is what `powerUp` leaves of any state with its configuration and RAM size.
That configuration is the model's choice (log 3). -/
def Obligations.ResetStateIsPowerUp : Prop :=
  ∀ (s : State) (m : Memory), s.phase ≠ .uninit → s.cfg = State.reset.cfg → s.prgRAM = some m →
    m.size = 0x2000 → s.chrRAM = none →
    exec .powerUp s = .next
      { State.reset with reply := s.reply, pending := s.pending, draw := s.draw }

/-- `getNVRAMSize` answers the size of the battery-backed part, 0 without one, and changes nothing
else (R204). -/
def Obligations.NvramSizeIsBatterySize : Prop :=
  ∀ s : State, s.phase ≠ .uninit →
    exec .getNVRAMSize s = .next
      { s with
        reply := .nvramSize (if 0 < s.cfg.descriptor.prgRAMSizeBattery then
            s.cfg.descriptor.prgRAMSizeBattery
          else s.cfg.descriptor.chrRAMSizeBattery) }

/-- `getNVRAM` answers "absent" without a battery, else exactly the bytes of the battery-backed part,
and changes nothing else (R205). -/
def Obligations.GetNvramAnswersBatteryBytes : Prop :=
  ∀ s : State, s.phase ≠ .uninit → Inv s →
    (battery s.cfg.descriptor = none → exec .getNVRAM s = .next { s with reply := .nvram none }) ∧
    (∀ sp n, battery s.cfg.descriptor = some (sp, n) →
      ∃ l : List Byte, exec .getNVRAM s = .next { s with reply := .nvram (some l) } ∧
        l.length = n ∧ ∀ j, j < n → l[j]? = s.byteAt sp j)

/-- `setNVRAM` copies `min(len(data), batSize)` bytes to the front of the buffer with the battery;
every other byte of every space and every other field is as before (R206). -/
def Obligations.SetNvramCopiesBytes : Prop :=
  ∀ (s : State) (data : List Byte), s.phase ≠ .uninit → Inv s →
    ∃ t, exec (.setNVRAM data) s = .next t ∧
      t = { s with prgRAM := t.prgRAM, chrRAM := t.chrRAM } ∧
      (∀ sp n, battery s.cfg.descriptor = some (sp, n) → ∀ j, j < min data.length n →
        t.byteAt sp j = data[j]?) ∧
      (∀ sp n, battery s.cfg.descriptor = some (sp, n) → ∀ j, min data.length n ≤ j →
        t.byteAt sp j = s.byteAt sp j) ∧
      (∀ sp', (∀ n, battery s.cfg.descriptor ≠ some (sp', n)) → ∀ j,
        t.byteAt sp' j = s.byteAt sp' j)

/-- What `setNVRAM` stores survives a user reset and is what `getNVRAM` answers: the first
`min(len(data), batSize)` bytes unchanged (95_test_vectors.md S3, S6; R202, R205, R206). -/
def Obligations.NvramSurvivesUserReset : Prop :=
  ∀ (s : State) (data : List Byte) (sp : Space) (n : Nat), s.phase ≠ .uninit → Inv s →
    battery s.cfg.descriptor = some (sp, n) →
    ∃ (t : State) (l : List Byte), execAll [.setNVRAM data, .powerUp, .getNVRAM] s = .next t ∧
      t.reply = .nvram (some l) ∧ l.length = n ∧ l.take data.length = data.take n

/-- The mirroring setters write the area table and nothing else, and an area id outside 0..3 is refused
(R207 to R211). That they run in every phase is the model's reading (log 10). -/
def Obligations.MirroringSetters : Prop :=
  ∀ (s : State) (rest : List Event) (a b c d : Nat),
    exec .setMirroringHorizontal s = .next { s with ntMap := #v[0, 0, 1, 1] } ∧
    exec .setMirroringVertical s = .next { s with ntMap := #v[0, 1, 0, 1] } ∧
    exec .setMirroringFourScreen s = .next { s with ntMap := #v[0, 1, 2, 3] } ∧
    (∀ x : Area, exec (.setMirroringSingleScreen x) s = .next { s with ntMap := #v[x, x, x, x] }) ∧
    (∀ x y z w : Area,
      exec (.setMirroringAreas x y z w) s = .next { s with ntMap := #v[x, y, z, w] }) ∧
    (s.pending = .transaction (.host (.setMirroringSingleScreen a)) :: rest → 4 ≤ a →
      step s = .refused (.badOperand .areaOutOfRange)) ∧
    (s.pending = .transaction (.host (.setMirroringAreas a b c d)) :: rest →
      4 ≤ a ∨ 4 ≤ b ∨ 4 ≤ c ∨ 4 ≤ d → step s = .refused (.badOperand .areaOutOfRange))

/-! ## Window accesses -/

/-- A CPU read of 0x8000..0xFFFF answers the program-ROM byte behind the program window and changes
nothing else (20_memory.md R52, R61). Accesses run once there is a descriptor (log 9). -/
def Obligations.ProgramWindowRead : Prop :=
  ∀ (s : State) (a : Nat) (u : Fin 4), s.phase ≠ .uninit → Inv s → 0x8000 ≤ a → a ≤ 0xFFFF →
    u.val = (a - 0x8000) / 8192 →
    ∃ v, s.byteAt .prgROM (s.prgMap[u] * 8192 + a % 8192) = some v ∧
      runAccess (.cpuRead a) s = .next { s with reply := .byte v }

/-- What a CPU access finds outside program ROM. With program RAM mapped, a read of 0x6000..0x7FFF answers
its byte and a store changes that byte and no other, whatever was written to the write-protect slot
(R53, R57). With it unmapped the access is not the block's (R53): a read gets no value and a store
changes nothing; the same below 0x6000 (log 9). A store from 0x8000 on reaches no storage (R52). -/
def Obligations.ProgramRamWindow : Prop :=
  ∀ (s : State) (a : Nat) (v : Byte), s.phase ≠ .uninit → Inv s → a ≤ 0xFFFF →
    (∀ u, 0x6000 ≤ a → a ≤ 0x7FFF → s.prgRamMap = some u →
      (∃ b, s.byteAt .prgRAM (u * 8192 + a % 8192) = some b ∧
        runAccess (.cpuRead a) s = .next { s with reply := .byte b }) ∧
      (∃ t, runAccess (.cpuStore a v.toNat) s = .next t ∧ t = { s with prgRAM := t.prgRAM } ∧
        ∀ x, t.byteAt .prgRAM x =
          if x = u * 8192 + a % 8192 then some v else s.byteAt .prgRAM x)) ∧
    (a < 0x6000 ∨ (a ≤ 0x7FFF ∧ s.prgRamMap = none) →
      runAccess (.cpuRead a) s = .next { s with reply := .notOurs } ∧
      runAccess (.cpuStore a v.toNat) s = .next s) ∧
    (0x8000 ≤ a → runAccess (.cpuStore a v.toNat) s = .next s)

/-- The graphics window: a read answers the graphics-ROM byte, or the graphics-RAM byte of a cartridge
without graphics ROM; a write changes nothing with graphics ROM and stores the byte without (R54). -/
def Obligations.GraphicsWindow : Prop :=
  ∀ (s : State) (p : Nat) (u : Fin 8) (v : Byte), s.phase ≠ .uninit → Inv s → p ≤ 0xFFFF →
    p % 0x4000 < 0x2000 → u.val = p % 0x2000 / 1024 →
    (0 < s.cfg.descriptor.chrROMSize →
      (∃ b, s.byteAt .chrROM (s.chrMap[u] * 1024 + p % 1024) = some b ∧
        runAccess (.ppuRead p) s = .next { s with reply := .byte b }) ∧
      runAccess (.ppuStore p v.toNat) s = .next s) ∧
    (s.cfg.descriptor.chrROMSize = 0 →
      (∃ b, s.byteAt .chrRAM (s.chrMap[u] * 1024 + p % 1024) = some b ∧
        runAccess (.ppuRead p) s = .next { s with reply := .byte b }) ∧
      ∃ t, runAccess (.ppuStore p v.toNat) s = .next t ∧ t = { s with chrRAM := t.chrRAM } ∧
        ∀ x, t.byteAt .chrRAM x =
          if x = s.chrMap[u] * 1024 + p % 1024 then some v else s.byteAt .chrRAM x)

/-- The nametable window: an access goes to the area of its slot at its offset (R55). -/
def Obligations.NametableWindow : Prop :=
  ∀ (s : State) (p : Nat) (u : Fin 4) (v : Byte), s.phase ≠ .uninit → p ≤ 0xFFFF →
    0x2000 ≤ p % 0x4000 → p % 0x4000 < 0x3F00 → u.val = (p % 0x4000 - 0x2000) / 1024 % 4 →
    runAccess (.ppuRead p) s = .next { s with reply := .nametable s.ntMap[u] (p % 1024) } ∧
    runAccess (.ppuStore p v.toNat) s =
      .next { s with reply := .nametable s.ntMap[u] (p % 1024) }

/-! ## The whole machine -/

/-- Every step keeps the invariant of the block (00_scope.md R6; 10_state.md R32 to R36;
40_bank_window.md R117; 70_reset_and_hazards.md R261). -/
def Obligations.StepKeepsBlockInvariant : Prop :=
  ∀ s t : State, Inv s → step s = .next t → Inv t

/-- The state after reset meets the invariant. -/
def Obligations.ResetMeetsBlockInvariant : Prop := Inv State.reset

/-- The block raises no exception: from a state that meets the invariant no step ends in a fault
(60_exceptions.md R230). -/
def Obligations.StepNeverFaults : Prop :=
  ∀ s : State, Inv s → ∀ f, step s ≠ .fault f

/-- A running block takes a step for every call but those the spec refuses: a call that decodes to an
instruction other than `initialize` answers a next state (60_exceptions.md R231, R232). -/
def Obligations.RunningBlockCompletesEveryCall : Prop :=
  ∀ (s : State) (t : Transaction) (i : Instr) (rest : List Event), Inv s → s.phase = .running →
    s.pending = .transaction t :: rest → decode s.command t = .ok i →
    (∀ d, i ≠ .initialise d) → ∃ u, step s = .next u ∧ u.phase = .running

/-- The line falls only by IRQ_DISABLE and `powerUp`, and rises only in a high tick that finds no delay
pending, with the interrupt enabled (60_exceptions.md R233, R234). -/
def Obligations.LineChangesOnlyByItsRules : Prop :=
  ∀ s t : State, s.phase ≠ .uninit → step s = .next t → t.irqOut ≠ s.irqOut →
    ∃ (x : Transaction) (i : Instr), s.pending = .transaction x :: t.pending ∧
      decode s.command x = .ok i ∧
      (t.irqOut = false → i = .powerUp ∨ ∃ a v, i = .irqDisable a v) ∧
      (t.irqOut = true → (∃ p, i = .tickHigh p) ∧ s.irqEdgeFilterDelay = 0 ∧
        s.irqEnabled = true ∧ t.irqCounter = 0)

/-- Each field of the state is changed only by the instructions the state record names as its writers
(10_state.md section 1). -/
def Obligations.FieldsChangeOnlyByTheirWriters : Prop :=
  ∀ (s t : State) (i : Instr), s.phase ≠ .uninit → exec i s = .next t → i ≠ .powerUp →
    ChangedByWriters i s t

/-- The frame of memory: every instruction but `initialize`, `powerUp` and `setNVRAM` leaves every byte
of every space as it was. -/
def Obligations.InstructionsLeaveStorageAlone : Prop :=
  ∀ (s t : State) (i : Instr), exec i s = .next t → (∀ d, i ≠ .initialise d) → i ≠ .powerUp →
    (∀ data, i ≠ .setNVRAM data) → ∀ sp a, t.byteAt sp a = s.byteAt sp a

/-- Program unit 3 keeps its bank for the rest of the session: a step changes it only by `powerUp`
(10_state.md R32; 70_reset_and_hazards.md R261). -/
def Obligations.TopProgramUnitIsFixed : Prop :=
  ∀ s t : State, s.phase ≠ .uninit → step s = .next t → t.prgMap[3] ≠ s.prgMap[3] →
    s.pending = .transaction (.host .powerUp) :: t.pending

/-- The chip-variant flag holds for the whole session, and the descriptor with its ROM bytes is never
changed after `initialize` (10_state.md R29, R37; 20_memory.md R56). That the OPEN parameter
`CHR2K_TARGET_SHIFT` (00_scope.md R5, D8) is a configuration field that no step changes is the model's
(PRESUMED, log 4). -/
def Obligations.ConfigurationIsFixed : Prop :=
  ∀ s t : State, step s = .next t →
    t.cfg.altMode = s.cfg.altMode ∧ t.cfg.chr2kTargetShift = s.cfg.chr2kTargetShift ∧
    (s.phase ≠ .uninit → t.cfg.descriptor = s.cfg.descriptor ∧
      ∀ a, t.byteAt .prgROM a = s.byteAt .prgROM a ∧ t.byteAt .chrROM a = s.byteAt .chrROM a)

/-- A battery-backed byte changes only by a `setNVRAM` long enough to reach it, or by a CPU store through
the program-RAM window or a PPU store through the graphics window to that very byte
(60_exceptions.md R243; 43_host_interface.md R202, R206; 20_memory.md R53, R54). -/
def Obligations.BatteryBytesChangeOnlyByStores : Prop :=
  ∀ (s t : State) (sp : Space) (n a : Nat), s.phase ≠ .uninit → step s = .next t →
    battery s.cfg.descriptor = some (sp, n) → a < n → t.byteAt sp a ≠ s.byteAt sp a →
    (∃ data, s.pending = .transaction (.host (.setNVRAM data)) :: t.pending ∧
      a < min data.length n) ∨
    (∃ x v u, s.pending = .access (.cpuStore x v) :: t.pending ∧ sp = .prgRAM ∧
      0x6000 ≤ x ∧ x ≤ 0x7FFF ∧ s.prgRamMap = some u ∧ a = prgRamIndex u x) ∨
    ∃ p v, s.pending = .access (.ppuStore p v) :: t.pending ∧ sp = .chrRAM ∧
      s.cfg.descriptor.chrROMSize = 0 ∧ p % 0x4000 < 0x2000 ∧ a = chrIndex s p

/-- No read has a side effect on the block (R61): it changes the model's own answer field (log 5) and
nothing else. -/
def Obligations.ReadsHaveNoSideEffect : Prop :=
  ∀ (s t : State) (a : Nat), (runAccess (.cpuRead a) s = .next t ∨ runAccess (.ppuRead a) s = .next t) →
    t = { s with reply := t.reply }
end

