-- ==== Sys2Proof/Laws/BankWindow.lean ====
section
/-! SUPPORT. Laws of the bank window mapper. -/

namespace Sys2Proof.Machine

/-- A masked unit never lies beyond the mask. -/
theorem wrap_le (d : Int) (m : Nat) : wrap d m ≤ m := by
  unfold wrap
  have h1 : 0 ≤ d % ((m : Int) + 1) := Int.emod_nonneg _ (by omega)
  have h2 : d % ((m : Int) + 1) < (m : Int) + 1 := Int.emod_lt_of_pos _ (by omega)
  omega

theorem wrap_natCast (d m : Nat) : wrap (d : Int) m = d % (m + 1) := by
  unfold wrap
  have : ((d : Int) % ((m : Int) + 1)) = ((d % (m + 1) : Nat) : Int) := by push_cast; rfl
  rw [this]
  rfl

/-- The first `n` assignments, one entry at a time. -/
theorem mapBankWindow_get {w : Nat} (src : Nat) (dst : Int) (n e size : Nat) (t : Vector Nat w)
    (u : Nat) (hu : u < w) :
    (mapBankWindow src dst n e size t)[u] =
      if src ≤ u ∧ u < src + n then wrap (dst + ((u - src : Nat) : Int)) (maxUnit size e) else t[u] := by
  unfold mapBankWindow
  induction n with
  | zero => simp
  | succ n ih =>
    rw [List.range_succ, List.foldl_append, List.foldl_cons, List.foldl_nil,
      Vector.getElem_setIfInBounds hu, ih]
    by_cases h : src + n = u
    · subst h
      simp
    · by_cases h2 : src ≤ u ∧ u < src + n
      · simp [h, h2]; omega
      · rw [if_neg h, if_neg h2, if_neg (by omega)]

/-- A request writes the units of its window and no other. -/
theorem request_get {w : Nat} (k s : Nat) (b : Int) (e size : Nat) (t : Vector Nat w) (u : Nat)
    (hu : u < w) :
    (request k s b e size t)[u] =
      if s * k ≤ u ∧ u < s * k + k then
        wrap (b * (k : Int) + ((u - s * k : Nat) : Int)) (maxUnit size e)
      else t[u] :=
  mapBankWindow_get (s * k) (b * (k : Int)) k e size t u hu

/-- An admitted size is a power of two, so its mask is one less than its number of units. -/
theorem isPow2_iff (n : Nat) : isPow2 n = true ↔ ∃ k, n = 2 ^ k := by
  unfold isPow2
  simp only [decide_eq_true_eq]
  constructor
  · intro h
    exact ⟨_, h⟩
  · rintro ⟨k, rfl⟩
    rw [Nat.log2_two_pow]

/-- The units of an admitted storage fill it. -/
theorem maxUnit_bytes {size e : Nat} (hp : isPow2 size = true) (he : 2 ^ e ≤ size) :
    (maxUnit size e + 1) * 2 ^ e = size := by
  obtain ⟨k, rfl⟩ := (isPow2_iff size).1 hp
  have hek : e ≤ k := (Nat.pow_le_pow_iff_right (by omega)).1 he
  unfold maxUnit
  rw [Nat.shiftRight_eq_div_pow]
  obtain ⟨j, rfl⟩ := Nat.exists_eq_add_of_le hek
  have h1 : 0 < 2 ^ e := Nat.two_pow_pos e
  have h2 : 0 < 2 ^ j := Nat.two_pow_pos j
  rw [Nat.pow_add]
  have h3 : (2 ^ e * 2 ^ j - 1) / 2 ^ e = 2 ^ j - 1 := by
    have : 2 ^ e * 2 ^ j - 1 = (2 ^ e - 1) + 2 ^ e * (2 ^ j - 1) := by
      have h4 : 2 ^ e * (2 ^ j - 1) + 2 ^ e = 2 ^ e * 2 ^ j := by
        rw [← Nat.mul_succ]
        congr 1
        omega
      omega
    rw [this, Nat.add_mul_div_left _ _ h1, Nat.div_eq_of_lt (by omega)]
    omega
  rw [h3, Nat.sub_add_cancel h2, Nat.mul_comm]

/-- The mask of an admitted storage is a power of two minus one (R110). -/
theorem maxUnit_isMask {size e : Nat} (hp : isPow2 size = true) (he : 2 ^ e ≤ size) :
    ∃ j, maxUnit size e = 2 ^ j - 1 := by
  obtain ⟨k, rfl⟩ := (isPow2_iff size).1 hp
  obtain ⟨j, rfl⟩ := Nat.exists_eq_add_of_le ((Nat.pow_le_pow_iff_right (by omega)).1 he)
  exact ⟨j, by
    have h : (maxUnit (2 ^ (e + j)) e + 1) * 2 ^ e = 2 ^ j * 2 ^ e := by
      rw [maxUnit_bytes hp he, Nat.pow_add, Nat.mul_comm]
    have := Nat.eq_of_mul_eq_mul_right (Nat.two_pow_pos e) h
    omega⟩

/-- For a mask `2^j - 1` the bitwise and is the wrap (R111). -/
theorem wrap_natCast_eq_and (d j : Nat) : wrap (d : Int) (2 ^ j - 1) = d &&& (2 ^ j - 1) := by
  rw [wrap_natCast, Nat.and_two_pow_sub_one_eq_mod, Nat.sub_add_cancel (Nat.two_pow_pos j)]

end Sys2Proof.Machine
end

