-- ==== Sys2Proof/Laws/State.lean ====
section
/-! SUPPORT. What each named update leaves in each field of the state: one lemma per field per update,
so that no later proof unfolds a record update. -/

namespace Sys2Proof.Machine

/-! ## answer -/

@[simp] theorem answer_cfg (s : State) (r : Reply) : (s.answer r).cfg = s.cfg := rfl
@[simp] theorem answer_command (s : State) (r : Reply) : (s.answer r).command = s.command := rfl
@[simp] theorem answer_irqLatch (s : State) (r : Reply) : (s.answer r).irqLatch = s.irqLatch := rfl
@[simp] theorem answer_irqCounter (s : State) (r : Reply) :
    (s.answer r).irqCounter = s.irqCounter := rfl
@[simp] theorem answer_irqReloadPending (s : State) (r : Reply) :
    (s.answer r).irqReloadPending = s.irqReloadPending := rfl
@[simp] theorem answer_irqEnabled (s : State) (r : Reply) :
    (s.answer r).irqEnabled = s.irqEnabled := rfl
@[simp] theorem answer_irqEdgeFilterDelay (s : State) (r : Reply) :
    (s.answer r).irqEdgeFilterDelay = s.irqEdgeFilterDelay := rfl
@[simp] theorem answer_irqOut (s : State) (r : Reply) : (s.answer r).irqOut = s.irqOut := rfl
@[simp] theorem answer_prgMap (s : State) (r : Reply) : (s.answer r).prgMap = s.prgMap := rfl
@[simp] theorem answer_prgRamMap (s : State) (r : Reply) :
    (s.answer r).prgRamMap = s.prgRamMap := rfl
@[simp] theorem answer_chrMap (s : State) (r : Reply) : (s.answer r).chrMap = s.chrMap := rfl
@[simp] theorem answer_ntMap (s : State) (r : Reply) : (s.answer r).ntMap = s.ntMap := rfl
@[simp] theorem answer_prgRAM (s : State) (r : Reply) : (s.answer r).prgRAM = s.prgRAM := rfl
@[simp] theorem answer_chrRAM (s : State) (r : Reply) : (s.answer r).chrRAM = s.chrRAM := rfl
@[simp] theorem answer_phase (s : State) (r : Reply) : (s.answer r).phase = s.phase := rfl
@[simp] theorem answer_reply (s : State) (r : Reply) : (s.answer r).reply = r := rfl
@[simp] theorem answer_pending (s : State) (r : Reply) : (s.answer r).pending = s.pending := rfl
@[simp] theorem answer_draw (s : State) (r : Reply) : (s.answer r).draw = s.draw := rfl

/-! ## withPending -/

@[simp] theorem withPending_cfg (s : State) (l : List Event) : (s.withPending l).cfg = s.cfg := rfl
@[simp] theorem withPending_command (s : State) (l : List Event) :
    (s.withPending l).command = s.command := rfl
@[simp] theorem withPending_irqLatch (s : State) (l : List Event) :
    (s.withPending l).irqLatch = s.irqLatch := rfl
@[simp] theorem withPending_irqCounter (s : State) (l : List Event) :
    (s.withPending l).irqCounter = s.irqCounter := rfl
@[simp] theorem withPending_irqReloadPending (s : State) (l : List Event) :
    (s.withPending l).irqReloadPending = s.irqReloadPending := rfl
@[simp] theorem withPending_irqEnabled (s : State) (l : List Event) :
    (s.withPending l).irqEnabled = s.irqEnabled := rfl
@[simp] theorem withPending_irqEdgeFilterDelay (s : State) (l : List Event) :
    (s.withPending l).irqEdgeFilterDelay = s.irqEdgeFilterDelay := rfl
@[simp] theorem withPending_irqOut (s : State) (l : List Event) :
    (s.withPending l).irqOut = s.irqOut := rfl
@[simp] theorem withPending_prgMap (s : State) (l : List Event) :
    (s.withPending l).prgMap = s.prgMap := rfl
@[simp] theorem withPending_prgRamMap (s : State) (l : List Event) :
    (s.withPending l).prgRamMap = s.prgRamMap := rfl
@[simp] theorem withPending_chrMap (s : State) (l : List Event) :
    (s.withPending l).chrMap = s.chrMap := rfl
@[simp] theorem withPending_ntMap (s : State) (l : List Event) :
    (s.withPending l).ntMap = s.ntMap := rfl
@[simp] theorem withPending_prgRAM (s : State) (l : List Event) :
    (s.withPending l).prgRAM = s.prgRAM := rfl
@[simp] theorem withPending_chrRAM (s : State) (l : List Event) :
    (s.withPending l).chrRAM = s.chrRAM := rfl
@[simp] theorem withPending_phase (s : State) (l : List Event) :
    (s.withPending l).phase = s.phase := rfl
@[simp] theorem withPending_reply (s : State) (l : List Event) :
    (s.withPending l).reply = s.reply := rfl
@[simp] theorem withPending_pending (s : State) (l : List Event) :
    (s.withPending l).pending = l := rfl
@[simp] theorem withPending_draw (s : State) (l : List Event) :
    (s.withPending l).draw = s.draw := rfl

/-! ## assertIRQ -/

@[simp] theorem assertIRQ_cfg (s : State) : (assertIRQ s).cfg = s.cfg := rfl
@[simp] theorem assertIRQ_command (s : State) : (assertIRQ s).command = s.command := rfl
@[simp] theorem assertIRQ_irqLatch (s : State) : (assertIRQ s).irqLatch = s.irqLatch := rfl
@[simp] theorem assertIRQ_irqCounter (s : State) : (assertIRQ s).irqCounter = s.irqCounter := rfl
@[simp] theorem assertIRQ_irqReloadPending (s : State) :
    (assertIRQ s).irqReloadPending = s.irqReloadPending := rfl
@[simp] theorem assertIRQ_irqEnabled (s : State) : (assertIRQ s).irqEnabled = s.irqEnabled := rfl
@[simp] theorem assertIRQ_irqEdgeFilterDelay (s : State) :
    (assertIRQ s).irqEdgeFilterDelay = s.irqEdgeFilterDelay := rfl
@[simp] theorem assertIRQ_irqOut (s : State) : (assertIRQ s).irqOut = true := rfl
@[simp] theorem assertIRQ_prgMap (s : State) : (assertIRQ s).prgMap = s.prgMap := rfl
@[simp] theorem assertIRQ_prgRamMap (s : State) : (assertIRQ s).prgRamMap = s.prgRamMap := rfl
@[simp] theorem assertIRQ_chrMap (s : State) : (assertIRQ s).chrMap = s.chrMap := rfl
@[simp] theorem assertIRQ_ntMap (s : State) : (assertIRQ s).ntMap = s.ntMap := rfl
@[simp] theorem assertIRQ_prgRAM (s : State) : (assertIRQ s).prgRAM = s.prgRAM := rfl
@[simp] theorem assertIRQ_chrRAM (s : State) : (assertIRQ s).chrRAM = s.chrRAM := rfl
@[simp] theorem assertIRQ_phase (s : State) : (assertIRQ s).phase = s.phase := rfl
@[simp] theorem assertIRQ_reply (s : State) : (assertIRQ s).reply = s.reply := rfl
@[simp] theorem assertIRQ_pending (s : State) : (assertIRQ s).pending = s.pending := rfl
@[simp] theorem assertIRQ_draw (s : State) : (assertIRQ s).draw = s.draw := rfl

/-! ## clearIRQ -/

@[simp] theorem clearIRQ_cfg (s : State) : (clearIRQ s).cfg = s.cfg := rfl
@[simp] theorem clearIRQ_command (s : State) : (clearIRQ s).command = s.command := rfl
@[simp] theorem clearIRQ_irqLatch (s : State) : (clearIRQ s).irqLatch = s.irqLatch := rfl
@[simp] theorem clearIRQ_irqCounter (s : State) : (clearIRQ s).irqCounter = s.irqCounter := rfl
@[simp] theorem clearIRQ_irqReloadPending (s : State) :
    (clearIRQ s).irqReloadPending = s.irqReloadPending := rfl
@[simp] theorem clearIRQ_irqEnabled (s : State) : (clearIRQ s).irqEnabled = s.irqEnabled := rfl
@[simp] theorem clearIRQ_irqEdgeFilterDelay (s : State) :
    (clearIRQ s).irqEdgeFilterDelay = s.irqEdgeFilterDelay := rfl
@[simp] theorem clearIRQ_irqOut (s : State) : (clearIRQ s).irqOut = false := rfl
@[simp] theorem clearIRQ_prgMap (s : State) : (clearIRQ s).prgMap = s.prgMap := rfl
@[simp] theorem clearIRQ_prgRamMap (s : State) : (clearIRQ s).prgRamMap = s.prgRamMap := rfl
@[simp] theorem clearIRQ_chrMap (s : State) : (clearIRQ s).chrMap = s.chrMap := rfl
@[simp] theorem clearIRQ_ntMap (s : State) : (clearIRQ s).ntMap = s.ntMap := rfl
@[simp] theorem clearIRQ_prgRAM (s : State) : (clearIRQ s).prgRAM = s.prgRAM := rfl
@[simp] theorem clearIRQ_chrRAM (s : State) : (clearIRQ s).chrRAM = s.chrRAM := rfl
@[simp] theorem clearIRQ_phase (s : State) : (clearIRQ s).phase = s.phase := rfl
@[simp] theorem clearIRQ_reply (s : State) : (clearIRQ s).reply = s.reply := rfl
@[simp] theorem clearIRQ_pending (s : State) : (clearIRQ s).pending = s.pending := rfl
@[simp] theorem clearIRQ_draw (s : State) : (clearIRQ s).draw = s.draw := rfl

/-! ## setAreas -/

@[simp] theorem setAreas_cfg (t : Vector Area 4) (s : State) : (setAreas t s).cfg = s.cfg := rfl
@[simp] theorem setAreas_command (t : Vector Area 4) (s : State) :
    (setAreas t s).command = s.command := rfl
@[simp] theorem setAreas_irqLatch (t : Vector Area 4) (s : State) :
    (setAreas t s).irqLatch = s.irqLatch := rfl
@[simp] theorem setAreas_irqCounter (t : Vector Area 4) (s : State) :
    (setAreas t s).irqCounter = s.irqCounter := rfl
@[simp] theorem setAreas_irqReloadPending (t : Vector Area 4) (s : State) :
    (setAreas t s).irqReloadPending = s.irqReloadPending := rfl
@[simp] theorem setAreas_irqEnabled (t : Vector Area 4) (s : State) :
    (setAreas t s).irqEnabled = s.irqEnabled := rfl
@[simp] theorem setAreas_irqEdgeFilterDelay (t : Vector Area 4) (s : State) :
    (setAreas t s).irqEdgeFilterDelay = s.irqEdgeFilterDelay := rfl
@[simp] theorem setAreas_irqOut (t : Vector Area 4) (s : State) :
    (setAreas t s).irqOut = s.irqOut := rfl
@[simp] theorem setAreas_prgMap (t : Vector Area 4) (s : State) :
    (setAreas t s).prgMap = s.prgMap := rfl
@[simp] theorem setAreas_prgRamMap (t : Vector Area 4) (s : State) :
    (setAreas t s).prgRamMap = s.prgRamMap := rfl
@[simp] theorem setAreas_chrMap (t : Vector Area 4) (s : State) :
    (setAreas t s).chrMap = s.chrMap := rfl
@[simp] theorem setAreas_ntMap (t : Vector Area 4) (s : State) : (setAreas t s).ntMap = t := rfl
@[simp] theorem setAreas_prgRAM (t : Vector Area 4) (s : State) :
    (setAreas t s).prgRAM = s.prgRAM := rfl
@[simp] theorem setAreas_chrRAM (t : Vector Area 4) (s : State) :
    (setAreas t s).chrRAM = s.chrRAM := rfl
@[simp] theorem setAreas_phase (t : Vector Area 4) (s : State) :
    (setAreas t s).phase = s.phase := rfl
@[simp] theorem setAreas_reply (t : Vector Area 4) (s : State) :
    (setAreas t s).reply = s.reply := rfl
@[simp] theorem setAreas_pending (t : Vector Area 4) (s : State) :
    (setAreas t s).pending = s.pending := rfl
@[simp] theorem setAreas_draw (t : Vector Area 4) (s : State) : (setAreas t s).draw = s.draw := rfl

/-! ## prgRequest -/

@[simp] theorem prgRequest_cfg (k w : Nat) (b : Int) (s : State) :
    (prgRequest k w b s).cfg = s.cfg := rfl
@[simp] theorem prgRequest_command (k w : Nat) (b : Int) (s : State) :
    (prgRequest k w b s).command = s.command := rfl
@[simp] theorem prgRequest_irqLatch (k w : Nat) (b : Int) (s : State) :
    (prgRequest k w b s).irqLatch = s.irqLatch := rfl
@[simp] theorem prgRequest_irqCounter (k w : Nat) (b : Int) (s : State) :
    (prgRequest k w b s).irqCounter = s.irqCounter := rfl
@[simp] theorem prgRequest_irqReloadPending (k w : Nat) (b : Int) (s : State) :
    (prgRequest k w b s).irqReloadPending = s.irqReloadPending := rfl
@[simp] theorem prgRequest_irqEnabled (k w : Nat) (b : Int) (s : State) :
    (prgRequest k w b s).irqEnabled = s.irqEnabled := rfl
@[simp] theorem prgRequest_irqEdgeFilterDelay (k w : Nat) (b : Int) (s : State) :
    (prgRequest k w b s).irqEdgeFilterDelay = s.irqEdgeFilterDelay := rfl
@[simp] theorem prgRequest_irqOut (k w : Nat) (b : Int) (s : State) :
    (prgRequest k w b s).irqOut = s.irqOut := rfl
@[simp] theorem prgRequest_prgMap (k w : Nat) (b : Int) (s : State) :
    (prgRequest k w b s).prgMap = request k w b prgExp s.cfg.descriptor.prgROMSize s.prgMap := rfl
@[simp] theorem prgRequest_prgRamMap (k w : Nat) (b : Int) (s : State) :
    (prgRequest k w b s).prgRamMap = s.prgRamMap := rfl
@[simp] theorem prgRequest_chrMap (k w : Nat) (b : Int) (s : State) :
    (prgRequest k w b s).chrMap = s.chrMap := rfl
@[simp] theorem prgRequest_ntMap (k w : Nat) (b : Int) (s : State) :
    (prgRequest k w b s).ntMap = s.ntMap := rfl
@[simp] theorem prgRequest_prgRAM (k w : Nat) (b : Int) (s : State) :
    (prgRequest k w b s).prgRAM = s.prgRAM := rfl
@[simp] theorem prgRequest_chrRAM (k w : Nat) (b : Int) (s : State) :
    (prgRequest k w b s).chrRAM = s.chrRAM := rfl
@[simp] theorem prgRequest_phase (k w : Nat) (b : Int) (s : State) :
    (prgRequest k w b s).phase = s.phase := rfl
@[simp] theorem prgRequest_reply (k w : Nat) (b : Int) (s : State) :
    (prgRequest k w b s).reply = s.reply := rfl
@[simp] theorem prgRequest_pending (k w : Nat) (b : Int) (s : State) :
    (prgRequest k w b s).pending = s.pending := rfl
@[simp] theorem prgRequest_draw (k w : Nat) (b : Int) (s : State) :
    (prgRequest k w b s).draw = s.draw := rfl

/-! ## chrRequest -/

@[simp] theorem chrRequest_cfg (k w : Nat) (b : Int) (s : State) :
    (chrRequest k w b s).cfg = s.cfg := rfl
@[simp] theorem chrRequest_command (k w : Nat) (b : Int) (s : State) :
    (chrRequest k w b s).command = s.command := rfl
@[simp] theorem chrRequest_irqLatch (k w : Nat) (b : Int) (s : State) :
    (chrRequest k w b s).irqLatch = s.irqLatch := rfl
@[simp] theorem chrRequest_irqCounter (k w : Nat) (b : Int) (s : State) :
    (chrRequest k w b s).irqCounter = s.irqCounter := rfl
@[simp] theorem chrRequest_irqReloadPending (k w : Nat) (b : Int) (s : State) :
    (chrRequest k w b s).irqReloadPending = s.irqReloadPending := rfl
@[simp] theorem chrRequest_irqEnabled (k w : Nat) (b : Int) (s : State) :
    (chrRequest k w b s).irqEnabled = s.irqEnabled := rfl
@[simp] theorem chrRequest_irqEdgeFilterDelay (k w : Nat) (b : Int) (s : State) :
    (chrRequest k w b s).irqEdgeFilterDelay = s.irqEdgeFilterDelay := rfl
@[simp] theorem chrRequest_irqOut (k w : Nat) (b : Int) (s : State) :
    (chrRequest k w b s).irqOut = s.irqOut := rfl
@[simp] theorem chrRequest_prgMap (k w : Nat) (b : Int) (s : State) :
    (chrRequest k w b s).prgMap = s.prgMap := rfl
@[simp] theorem chrRequest_prgRamMap (k w : Nat) (b : Int) (s : State) :
    (chrRequest k w b s).prgRamMap = s.prgRamMap := rfl
@[simp] theorem chrRequest_chrMap (k w : Nat) (b : Int) (s : State) :
    (chrRequest k w b s).chrMap = request k w b chrExp s.cfg.descriptor.chrPhys s.chrMap := rfl
@[simp] theorem chrRequest_ntMap (k w : Nat) (b : Int) (s : State) :
    (chrRequest k w b s).ntMap = s.ntMap := rfl
@[simp] theorem chrRequest_prgRAM (k w : Nat) (b : Int) (s : State) :
    (chrRequest k w b s).prgRAM = s.prgRAM := rfl
@[simp] theorem chrRequest_chrRAM (k w : Nat) (b : Int) (s : State) :
    (chrRequest k w b s).chrRAM = s.chrRAM := rfl
@[simp] theorem chrRequest_phase (k w : Nat) (b : Int) (s : State) :
    (chrRequest k w b s).phase = s.phase := rfl
@[simp] theorem chrRequest_reply (k w : Nat) (b : Int) (s : State) :
    (chrRequest k w b s).reply = s.reply := rfl
@[simp] theorem chrRequest_pending (k w : Nat) (b : Int) (s : State) :
    (chrRequest k w b s).pending = s.pending := rfl
@[simp] theorem chrRequest_draw (k w : Nat) (b : Int) (s : State) :
    (chrRequest k w b s).draw = s.draw := rfl

/-! ## prgRamRequest -/

@[simp] theorem prgRamRequest_cfg (s : State) : (prgRamRequest s).cfg = s.cfg := rfl
@[simp] theorem prgRamRequest_command (s : State) : (prgRamRequest s).command = s.command := rfl
@[simp] theorem prgRamRequest_irqLatch (s : State) : (prgRamRequest s).irqLatch = s.irqLatch := rfl
@[simp] theorem prgRamRequest_irqCounter (s : State) :
    (prgRamRequest s).irqCounter = s.irqCounter := rfl
@[simp] theorem prgRamRequest_irqReloadPending (s : State) :
    (prgRamRequest s).irqReloadPending = s.irqReloadPending := rfl
@[simp] theorem prgRamRequest_irqEnabled (s : State) :
    (prgRamRequest s).irqEnabled = s.irqEnabled := rfl
@[simp] theorem prgRamRequest_irqEdgeFilterDelay (s : State) :
    (prgRamRequest s).irqEdgeFilterDelay = s.irqEdgeFilterDelay := rfl
@[simp] theorem prgRamRequest_irqOut (s : State) : (prgRamRequest s).irqOut = s.irqOut := rfl
@[simp] theorem prgRamRequest_prgMap (s : State) : (prgRamRequest s).prgMap = s.prgMap := rfl
@[simp] theorem prgRamRequest_prgRamMap (s : State) :
    (prgRamRequest s).prgRamMap = if s.cfg.descriptor.prgRAMSize > 0 then some (prgRamUnit 0 s.cfg.descriptor.prgRAMSize) else none := rfl
@[simp] theorem prgRamRequest_chrMap (s : State) : (prgRamRequest s).chrMap = s.chrMap := rfl
@[simp] theorem prgRamRequest_ntMap (s : State) : (prgRamRequest s).ntMap = s.ntMap := rfl
@[simp] theorem prgRamRequest_prgRAM (s : State) : (prgRamRequest s).prgRAM = s.prgRAM := rfl
@[simp] theorem prgRamRequest_chrRAM (s : State) : (prgRamRequest s).chrRAM = s.chrRAM := rfl
@[simp] theorem prgRamRequest_phase (s : State) : (prgRamRequest s).phase = s.phase := rfl
@[simp] theorem prgRamRequest_reply (s : State) : (prgRamRequest s).reply = s.reply := rfl
@[simp] theorem prgRamRequest_pending (s : State) : (prgRamRequest s).pending = s.pending := rfl
@[simp] theorem prgRamRequest_draw (s : State) : (prgRamRequest s).draw = s.draw := rfl

/-! ## clearRegisters -/

@[simp] theorem clearRegisters_cfg (s : State) : (clearRegisters s).cfg = s.cfg := rfl
@[simp] theorem clearRegisters_command (s : State) : (clearRegisters s).command = 0 := rfl
@[simp] theorem clearRegisters_irqLatch (s : State) : (clearRegisters s).irqLatch = 0 := rfl
@[simp] theorem clearRegisters_irqCounter (s : State) : (clearRegisters s).irqCounter = 0 := rfl
@[simp] theorem clearRegisters_irqReloadPending (s : State) :
    (clearRegisters s).irqReloadPending = false := rfl
@[simp] theorem clearRegisters_irqEnabled (s : State) : (clearRegisters s).irqEnabled = false := rfl
@[simp] theorem clearRegisters_irqEdgeFilterDelay (s : State) :
    (clearRegisters s).irqEdgeFilterDelay = 0 := rfl
@[simp] theorem clearRegisters_irqOut (s : State) : (clearRegisters s).irqOut = s.irqOut := rfl
@[simp] theorem clearRegisters_prgMap (s : State) : (clearRegisters s).prgMap = s.prgMap := rfl
@[simp] theorem clearRegisters_prgRamMap (s : State) :
    (clearRegisters s).prgRamMap = s.prgRamMap := rfl
@[simp] theorem clearRegisters_chrMap (s : State) : (clearRegisters s).chrMap = s.chrMap := rfl
@[simp] theorem clearRegisters_ntMap (s : State) : (clearRegisters s).ntMap = s.ntMap := rfl
@[simp] theorem clearRegisters_prgRAM (s : State) : (clearRegisters s).prgRAM = s.prgRAM := rfl
@[simp] theorem clearRegisters_chrRAM (s : State) : (clearRegisters s).chrRAM = s.chrRAM := rfl
@[simp] theorem clearRegisters_phase (s : State) : (clearRegisters s).phase = s.phase := rfl
@[simp] theorem clearRegisters_reply (s : State) : (clearRegisters s).reply = s.reply := rfl
@[simp] theorem clearRegisters_pending (s : State) : (clearRegisters s).pending = s.pending := rfl
@[simp] theorem clearRegisters_draw (s : State) : (clearRegisters s).draw = s.draw := rfl

/-! ## zeroSuffixes -/

@[simp] theorem zeroSuffixes_cfg (s : State) : (zeroSuffixes s).cfg = s.cfg := rfl
@[simp] theorem zeroSuffixes_command (s : State) : (zeroSuffixes s).command = s.command := rfl
@[simp] theorem zeroSuffixes_irqLatch (s : State) : (zeroSuffixes s).irqLatch = s.irqLatch := rfl
@[simp] theorem zeroSuffixes_irqCounter (s : State) :
    (zeroSuffixes s).irqCounter = s.irqCounter := rfl
@[simp] theorem zeroSuffixes_irqReloadPending (s : State) :
    (zeroSuffixes s).irqReloadPending = s.irqReloadPending := rfl
@[simp] theorem zeroSuffixes_irqEnabled (s : State) :
    (zeroSuffixes s).irqEnabled = s.irqEnabled := rfl
@[simp] theorem zeroSuffixes_irqEdgeFilterDelay (s : State) :
    (zeroSuffixes s).irqEdgeFilterDelay = s.irqEdgeFilterDelay := rfl
@[simp] theorem zeroSuffixes_irqOut (s : State) : (zeroSuffixes s).irqOut = s.irqOut := rfl
@[simp] theorem zeroSuffixes_prgMap (s : State) : (zeroSuffixes s).prgMap = s.prgMap := rfl
@[simp] theorem zeroSuffixes_prgRamMap (s : State) : (zeroSuffixes s).prgRamMap = s.prgRamMap := rfl
@[simp] theorem zeroSuffixes_chrMap (s : State) : (zeroSuffixes s).chrMap = s.chrMap := rfl
@[simp] theorem zeroSuffixes_ntMap (s : State) : (zeroSuffixes s).ntMap = s.ntMap := rfl
@[simp] theorem zeroSuffixes_prgRAM (s : State) :
    (zeroSuffixes s).prgRAM = s.prgRAM.map (fun m => m.zeroFrom s.cfg.descriptor.prgRAMSizeBattery) := rfl
@[simp] theorem zeroSuffixes_chrRAM (s : State) :
    (zeroSuffixes s).chrRAM = s.chrRAM.map (fun m => m.zeroFrom s.cfg.descriptor.chrRAMSizeBattery) := rfl
@[simp] theorem zeroSuffixes_phase (s : State) : (zeroSuffixes s).phase = s.phase := rfl
@[simp] theorem zeroSuffixes_reply (s : State) : (zeroSuffixes s).reply = s.reply := rfl
@[simp] theorem zeroSuffixes_pending (s : State) : (zeroSuffixes s).pending = s.pending := rfl
@[simp] theorem zeroSuffixes_draw (s : State) : (zeroSuffixes s).draw = s.draw := rfl

/-! ## assertCheck, which may only raise the line -/

@[simp] theorem assertCheck_cfg (o : Byte) (r : Bool) (n : Byte) (s : State) :
    (assertCheck o r n s).cfg = s.cfg := by unfold assertCheck; split <;> rfl
@[simp] theorem assertCheck_command (o : Byte) (r : Bool) (n : Byte) (s : State) :
    (assertCheck o r n s).command = s.command := by unfold assertCheck; split <;> rfl
@[simp] theorem assertCheck_irqLatch (o : Byte) (r : Bool) (n : Byte) (s : State) :
    (assertCheck o r n s).irqLatch = s.irqLatch := by unfold assertCheck; split <;> rfl
@[simp] theorem assertCheck_irqCounter (o : Byte) (r : Bool) (n : Byte) (s : State) :
    (assertCheck o r n s).irqCounter = s.irqCounter := by unfold assertCheck; split <;> rfl
@[simp] theorem assertCheck_irqReloadPending (o : Byte) (r : Bool) (n : Byte) (s : State) :
    (assertCheck o r n s).irqReloadPending = s.irqReloadPending := by unfold assertCheck; split <;> rfl
@[simp] theorem assertCheck_irqEnabled (o : Byte) (r : Bool) (n : Byte) (s : State) :
    (assertCheck o r n s).irqEnabled = s.irqEnabled := by unfold assertCheck; split <;> rfl
@[simp] theorem assertCheck_irqEdgeFilterDelay (o : Byte) (r : Bool) (n : Byte) (s : State) :
    (assertCheck o r n s).irqEdgeFilterDelay = s.irqEdgeFilterDelay := by unfold assertCheck; split <;> rfl
@[simp] theorem assertCheck_prgMap (o : Byte) (r : Bool) (n : Byte) (s : State) :
    (assertCheck o r n s).prgMap = s.prgMap := by unfold assertCheck; split <;> rfl
@[simp] theorem assertCheck_prgRamMap (o : Byte) (r : Bool) (n : Byte) (s : State) :
    (assertCheck o r n s).prgRamMap = s.prgRamMap := by unfold assertCheck; split <;> rfl
@[simp] theorem assertCheck_chrMap (o : Byte) (r : Bool) (n : Byte) (s : State) :
    (assertCheck o r n s).chrMap = s.chrMap := by unfold assertCheck; split <;> rfl
@[simp] theorem assertCheck_ntMap (o : Byte) (r : Bool) (n : Byte) (s : State) :
    (assertCheck o r n s).ntMap = s.ntMap := by unfold assertCheck; split <;> rfl
@[simp] theorem assertCheck_prgRAM (o : Byte) (r : Bool) (n : Byte) (s : State) :
    (assertCheck o r n s).prgRAM = s.prgRAM := by unfold assertCheck; split <;> rfl
@[simp] theorem assertCheck_chrRAM (o : Byte) (r : Bool) (n : Byte) (s : State) :
    (assertCheck o r n s).chrRAM = s.chrRAM := by unfold assertCheck; split <;> rfl
@[simp] theorem assertCheck_phase (o : Byte) (r : Bool) (n : Byte) (s : State) :
    (assertCheck o r n s).phase = s.phase := by unfold assertCheck; split <;> rfl
@[simp] theorem assertCheck_reply (o : Byte) (r : Bool) (n : Byte) (s : State) :
    (assertCheck o r n s).reply = s.reply := by unfold assertCheck; split <;> rfl
@[simp] theorem assertCheck_pending (o : Byte) (r : Bool) (n : Byte) (s : State) :
    (assertCheck o r n s).pending = s.pending := by unfold assertCheck; split <;> rfl
@[simp] theorem assertCheck_draw (o : Byte) (r : Bool) (n : Byte) (s : State) :
    (assertCheck o r n s).draw = s.draw := by unfold assertCheck; split <;> rfl

theorem assertCheck_irqOut (o : Byte) (r : Bool) (n : Byte) (s : State) :
    (assertCheck o r n s).irqOut = (assertFires s.cfg.altMode s.irqEnabled o r n || s.irqOut) := by
  unfold assertCheck
  split
  · rename_i h
    simp [h]
  · rename_i h
    simp [h]

/-! ## withRAM, which only changes the named RAM -/

@[simp] theorem withRAM_cfg (s : State) (sp : Space) (m : Memory) :
    (s.withRAM sp m).cfg = s.cfg := by cases sp <;> rfl
@[simp] theorem withRAM_command (s : State) (sp : Space) (m : Memory) :
    (s.withRAM sp m).command = s.command := by cases sp <;> rfl
@[simp] theorem withRAM_irqLatch (s : State) (sp : Space) (m : Memory) :
    (s.withRAM sp m).irqLatch = s.irqLatch := by cases sp <;> rfl
@[simp] theorem withRAM_irqCounter (s : State) (sp : Space) (m : Memory) :
    (s.withRAM sp m).irqCounter = s.irqCounter := by cases sp <;> rfl
@[simp] theorem withRAM_irqReloadPending (s : State) (sp : Space) (m : Memory) :
    (s.withRAM sp m).irqReloadPending = s.irqReloadPending := by cases sp <;> rfl
@[simp] theorem withRAM_irqEnabled (s : State) (sp : Space) (m : Memory) :
    (s.withRAM sp m).irqEnabled = s.irqEnabled := by cases sp <;> rfl
@[simp] theorem withRAM_irqEdgeFilterDelay (s : State) (sp : Space) (m : Memory) :
    (s.withRAM sp m).irqEdgeFilterDelay = s.irqEdgeFilterDelay := by cases sp <;> rfl
@[simp] theorem withRAM_irqOut (s : State) (sp : Space) (m : Memory) :
    (s.withRAM sp m).irqOut = s.irqOut := by cases sp <;> rfl
@[simp] theorem withRAM_prgMap (s : State) (sp : Space) (m : Memory) :
    (s.withRAM sp m).prgMap = s.prgMap := by cases sp <;> rfl
@[simp] theorem withRAM_prgRamMap (s : State) (sp : Space) (m : Memory) :
    (s.withRAM sp m).prgRamMap = s.prgRamMap := by cases sp <;> rfl
@[simp] theorem withRAM_chrMap (s : State) (sp : Space) (m : Memory) :
    (s.withRAM sp m).chrMap = s.chrMap := by cases sp <;> rfl
@[simp] theorem withRAM_ntMap (s : State) (sp : Space) (m : Memory) :
    (s.withRAM sp m).ntMap = s.ntMap := by cases sp <;> rfl
@[simp] theorem withRAM_phase (s : State) (sp : Space) (m : Memory) :
    (s.withRAM sp m).phase = s.phase := by cases sp <;> rfl
@[simp] theorem withRAM_reply (s : State) (sp : Space) (m : Memory) :
    (s.withRAM sp m).reply = s.reply := by cases sp <;> rfl
@[simp] theorem withRAM_pending (s : State) (sp : Space) (m : Memory) :
    (s.withRAM sp m).pending = s.pending := by cases sp <;> rfl
@[simp] theorem withRAM_draw (s : State) (sp : Space) (m : Memory) :
    (s.withRAM sp m).draw = s.draw := by cases sp <;> rfl

/-- A RAM that is written holds the new content; every other space is as before. -/
theorem withRAM_storage (s : State) (sp : Space) (m : Memory) (h : sp = .prgRAM ∨ sp = .chrRAM)
    (sp' : Space) : (s.withRAM sp m).storage sp' = if sp' = sp then some m else s.storage sp' := by
  rcases h with rfl | rfl <;> cases sp' <;> rfl

end Sys2Proof.Machine
end

