-- ==== Sys2Proof/Laws/Storage.lean ====
section
/-! SUPPORT. Laws of a byte range: what a read gives after each operation, that every operation keeps
the canonical form, and that canonical ranges with equal bytes are equal data. -/

namespace Sys2Proof

/-! ## Reading cells -/

theorem readCells_cellOf_append (a : Nat) (v : Byte) (rest : List Host.Cell) (x : Nat)
    (h : x = a → readCells rest a = unlistedByte) :
    readCells (cellOf a v ++ rest) x = if x = a then v else readCells rest x := by
  unfold cellOf
  split
  · rename_i hv
    by_cases hx : x = a
    · subst hx
      simp [h rfl, hv]
    · simp [hx]
  · simp [readCells]

/-- Cells that start at `lo` say nothing about smaller addresses. -/
theorem readCells_below {size lo : Nat} {l : List Host.Cell} (hl : cellsWf size lo l = true)
    {x : Nat} (hx : x < lo) : readCells l x = unlistedByte := by
  induction l generalizing lo with
  | nil => rfl
  | cons c rest ih =>
    obtain ⟨b, u⟩ := c
    simp only [cellsWf, Bool.and_eq_true, decide_eq_true_eq] at hl
    obtain ⟨⟨⟨hb, _⟩, _⟩, hr⟩ := hl
    simp only [readCells]
    rw [if_neg (by omega)]
    exact ih hr (by omega)

theorem readCells_writeCells {size lo : Nat} {l : List Host.Cell} (hl : cellsWf size lo l = true)
    (a : Nat) (v : Byte) (x : Nat) :
    readCells (writeCells l a v) x = if x = a then v else readCells l x := by
  induction l generalizing lo with
  | nil => simpa [writeCells] using readCells_cellOf_append a v [] x (fun _ => rfl)
  | cons c rest ih =>
    obtain ⟨b, u⟩ := c
    have hl' := hl
    simp only [cellsWf, Bool.and_eq_true, decide_eq_true_eq] at hl
    obtain ⟨⟨⟨hb, hs⟩, hu⟩, hr⟩ := hl
    simp only [writeCells]
    split
    · rename_i hab
      refine readCells_cellOf_append a v _ x (fun _ => ?_)
      have : cellsWf size b ((b, u) :: rest) = true := by
        simp [cellsWf, hs, hu, hr]
      exact readCells_below this hab
    · split
      · rename_i hab
        subst hab
        rw [readCells_cellOf_append a v rest x (fun _ => readCells_below hr (by omega))]
        by_cases hx : x = a <;> simp [readCells, hx]
      · simp only [readCells, ih hr]
        by_cases hx : x = b
        · have : b ≠ a := by omega
          simp [hx, this]
        · simp [hx]

/-- A write leaves every other address alone, in any list of cells. -/
theorem readCells_writeCells_ne (l : List Host.Cell) {a x : Nat} (v : Byte) (h : x ≠ a) :
    readCells (writeCells l a v) x = readCells l x := by
  have hc : ∀ rest, readCells (cellOf a v ++ rest) x = readCells rest x := by
    intro rest
    unfold cellOf
    split <;> simp [readCells, h]
  induction l with
  | nil => simpa [writeCells] using hc []
  | cons c rest ih =>
    obtain ⟨b, u⟩ := c
    simp only [writeCells]
    split
    · exact hc _
    · split
      · rename_i hab
        rw [hc]
        simp [readCells, ← hab, h]
      · simp only [readCells, ih]

/-! ## The canonical form -/

theorem cellsWf_mono {size lo lo' : Nat} {l : List Host.Cell} (h : lo' ≤ lo)
    (hl : cellsWf size lo l = true) : cellsWf size lo' l = true := by
  cases l with
  | nil => rfl
  | cons c rest =>
    obtain ⟨b, u⟩ := c
    simp only [cellsWf, Bool.and_eq_true, decide_eq_true_eq] at hl ⊢
    exact ⟨⟨⟨by omega, hl.1.1.2⟩, hl.1.2⟩, hl.2⟩

theorem cellsWf_cellOf_append {size lo a : Nat} {v : Byte} {rest : List Host.Cell} (hlo : lo ≤ a)
    (ha : a < size) (hr : cellsWf size (a + 1) rest = true) :
    cellsWf size lo (cellOf a v ++ rest) = true := by
  unfold cellOf
  split
  · exact cellsWf_mono (by omega) hr
  · rename_i hv
    simp [cellsWf, hlo, ha, hv, hr]

theorem cellsWf_writeCells {size lo : Nat} {l : List Host.Cell} (hl : cellsWf size lo l = true)
    {a : Nat} (hlo : lo ≤ a) (ha : a < size) (v : Byte) :
    cellsWf size lo (writeCells l a v) = true := by
  induction l generalizing lo with
  | nil => simpa [writeCells] using cellsWf_cellOf_append (v := v) (rest := []) hlo ha rfl
  | cons c rest ih =>
    obtain ⟨b, u⟩ := c
    simp only [cellsWf, Bool.and_eq_true, decide_eq_true_eq] at hl
    obtain ⟨⟨⟨hb, hs⟩, hu⟩, hr⟩ := hl
    simp only [writeCells]
    split
    · exact cellsWf_cellOf_append hlo ha (by simp [cellsWf, hs, hu, hr]; omega)
    · split
      · rename_i hab
        subst hab
        exact cellsWf_cellOf_append hlo ha hr
      · simp only [cellsWf, Bool.and_eq_true, decide_eq_true_eq]
        exact ⟨⟨⟨hb, hs⟩, hu⟩, ih hr (by omega)⟩

theorem cellsWf_filter {size lo : Nat} {l : List Host.Cell} (hl : cellsWf size lo l = true)
    (p : Host.Cell → Bool) : cellsWf size lo (l.filter p) = true := by
  induction l generalizing lo with
  | nil => rfl
  | cons c rest ih =>
    obtain ⟨b, u⟩ := c
    simp only [cellsWf, Bool.and_eq_true, decide_eq_true_eq] at hl
    obtain ⟨⟨⟨hb, hs⟩, hu⟩, hr⟩ := hl
    by_cases hp : p (b, u) = true
    · simp only [List.filter_cons_of_pos hp, cellsWf, Bool.and_eq_true, decide_eq_true_eq]
      exact ⟨⟨⟨hb, hs⟩, hu⟩, ih hr⟩
    · simp only [List.filter_cons_of_neg hp]
      exact ih (cellsWf_mono (by omega) hr)

/-! ## The operations -/

@[simp] theorem Memory.zeros_size (n : Nat) : (Memory.zeros n).size = n := rfl
@[simp] theorem Memory.zeros_wf (n : Nat) : (Memory.zeros n).wf = true := rfl
@[simp] theorem Memory.zeros_read (n a : Nat) : (Memory.zeros n).read a = 0 := rfl

@[simp] theorem Memory.write_size (m : Memory) (a : Nat) (v : Byte) : (m.write a v).size = m.size := by
  unfold Memory.write
  split <;> rfl

theorem Memory.write_wf {m : Memory} (h : m.wf = true) (a : Nat) (v : Byte) :
    (m.write a v).wf = true := by
  unfold Memory.write
  split
  · rename_i ha
    exact cellsWf_writeCells h (Nat.zero_le a) ha v
  · exact h

/-- The value written is read back at its address; every other byte is as before. -/
theorem Memory.read_write {m : Memory} (h : m.wf = true) (a : Nat) (v : Byte) (x : Nat) :
    (m.write a v).read x = if x = a ∧ a < m.size then v else m.read x := by
  unfold Memory.write
  split
  · rename_i ha
    simp [Memory.read, readCells_writeCells h, ha]
  · rename_i ha
    simp [ha]

@[simp] theorem Memory.writeBytes_size (m : Memory) (start : Nat) (data : List Byte) :
    (m.writeBytes start data).size = m.size := by
  induction data generalizing m start with
  | nil => rfl
  | cons v rest ih => simp [Memory.writeBytes, ih]

theorem Memory.writeBytes_wf {m : Memory} (h : m.wf = true) (start : Nat) (data : List Byte) :
    (m.writeBytes start data).wf = true := by
  induction data generalizing m start with
  | nil => exact h
  | cons v rest ih => exact ih (Memory.write_wf h start v) (start + 1)

/-- Byte `start + j` holds `data[j]`; bytes outside the copied run are as before. -/
theorem Memory.read_writeBytes {m : Memory} (h : m.wf = true) (start : Nat) (data : List Byte)
    (hfit : start + data.length ≤ m.size) (x : Nat) :
    (m.writeBytes start data).read x =
      if start ≤ x ∧ x < start + data.length then data.getD (x - start) 0 else m.read x := by
  induction data generalizing m start with
  | nil => simp [Memory.writeBytes]
  | cons v rest ih =>
    simp only [List.length_cons] at hfit
    simp only [Memory.writeBytes]
    rw [ih (Memory.write_wf h start v) (start + 1) (by simp; omega), Memory.read_write h]
    by_cases hx : x = start
    · subst hx
      have : x < m.size := by omega
      simp [this]
    · by_cases hin : start ≤ x ∧ x < start + (rest.length + 1)
      · have h1 : start + 1 ≤ x ∧ x < start + 1 + rest.length := by omega
        have h2 : x - start = (x - (start + 1)) + 1 := by omega
        simp only [List.length_cons, if_pos h1, if_pos hin, h2, List.getD_cons_succ]
      · have h1 : ¬(start + 1 ≤ x ∧ x < start + 1 + rest.length) := by omega
        simp only [List.length_cons, if_neg h1, if_neg hin]
        simp [hx]

@[simp] theorem Memory.zeroFrom_size (m : Memory) (n : Nat) : (m.zeroFrom n).size = m.size := rfl

theorem Memory.zeroFrom_wf {m : Memory} (h : m.wf = true) (n : Nat) : (m.zeroFrom n).wf = true :=
  cellsWf_filter h _

/-- The bytes before `n` stay, the others are 0. -/
theorem Memory.read_zeroFrom (m : Memory) (n x : Nat) :
    (m.zeroFrom n).read x = if x < n then m.read x else 0 := by
  unfold Memory.read Memory.zeroFrom
  simp only
  induction m.cells with
  | nil => simp [readCells, unlistedByte]
  | cons c rest ih =>
    obtain ⟨b, u⟩ := c
    by_cases hb : b < n
    · simp only [List.filter_cons, decide_eq_true hb, if_true, readCells, ih]
      by_cases hx : x = b
      · simp [hx, hb]
      · simp [hx]
    · simp only [List.filter_cons, hb, decide_false, Bool.false_eq_true, if_false, readCells, ih]
      by_cases hx : x = b
      · simp [hx, hb]
      · simp [hx]

theorem Memory.foldl_write_keeps (l : List Host.Cell) {m : Memory} (h : m.wf = true) :
    (l.foldl (fun m c => m.write c.1 c.2) m).wf = true ∧
      (l.foldl (fun m c => m.write c.1 c.2) m).size = m.size := by
  induction l generalizing m with
  | nil => exact ⟨h, rfl⟩
  | cons c rest ih =>
    have := ih (Memory.write_wf h c.1 c.2)
    simpa using this

@[simp] theorem Memory.ofDraw_wf (size : Nat) (l : List Host.Cell) : (Memory.ofDraw size l).wf = true :=
  (Memory.foldl_write_keeps l (Memory.zeros_wf size)).1

@[simp] theorem Memory.ofDraw_size (size : Nat) (l : List Host.Cell) :
    (Memory.ofDraw size l).size = size :=
  (Memory.foldl_write_keeps l (Memory.zeros_wf size)).2

@[simp] theorem Memory.readBytes_length (m : Memory) (n : Nat) : (m.readBytes n).length = n := by
  simp [Memory.readBytes]

theorem Memory.readBytes_getElem? (m : Memory) (n i : Nat) :
    (m.readBytes n)[i]? = if i < n then some (m.read i) else none := by
  unfold Memory.readBytes
  by_cases h : i < n <;> simp [h]

theorem Memory.load_write {m : Memory} (h : m.wf = true) {a : Nat} (ha : a < m.size) (v : Byte)
    (x : Nat) : (m.write a v).load x = if x = a then some v else m.load x := by
  unfold Memory.load
  rw [Memory.write_size, Memory.read_write h]
  by_cases hx : x = a
  · subst hx
    simp [ha]
  · simp [hx]

/-- A write leaves every other byte alone, in any range. -/
theorem Memory.read_write_ne (m : Memory) {a x : Nat} (v : Byte) (h : x ≠ a) :
    (m.write a v).read x = m.read x := by
  unfold Memory.write
  split
  · exact readCells_writeCells_ne m.cells v h
  · rfl

theorem Memory.load_write_ne (m : Memory) {a x : Nat} (v : Byte) (h : x ≠ a) :
    (m.write a v).load x = m.load x := by
  unfold Memory.load
  rw [Memory.write_size, Memory.read_write_ne m v h]

/-- A copied run leaves every byte outside it alone, in any range. -/
theorem Memory.load_writeBytes_outside (m : Memory) (start : Nat) (data : List Byte) {x : Nat}
    (h : x < start ∨ start + data.length ≤ x) : (m.writeBytes start data).load x = m.load x := by
  induction data generalizing m start with
  | nil => rfl
  | cons v rest ih =>
    simp only [List.length_cons] at h
    rw [Memory.writeBytes, ih (m.write start v) (start + 1) (by omega),
      Memory.load_write_ne m v (by omega)]

theorem Memory.load_zeroFrom (m : Memory) (n x : Nat) :
    (m.zeroFrom n).load x = if x < n then m.load x else (m.load x).map (fun _ => 0) := by
  unfold Memory.load
  rw [Memory.zeroFrom_size, Memory.read_zeroFrom]
  by_cases h : x < n <;> by_cases hs : x < m.size <;> simp [h, hs]

/-! ## Equal bytes are equal data -/

theorem readCells_head {size lo : Nat} {a : Nat} {v : Byte} {rest : List Host.Cell}
    (h : cellsWf size lo ((a, v) :: rest) = true) : v ≠ unlistedByte ∧ lo ≤ a ∧ a < size ∧
      cellsWf size (a + 1) rest = true := by
  simp only [cellsWf, Bool.and_eq_true, decide_eq_true_eq] at h
  exact ⟨h.1.2, h.1.1.1, h.1.1.2, h.2⟩

theorem cells_ext {size lo : Nat} {l l' : List Host.Cell} (hl : cellsWf size lo l = true)
    (hl' : cellsWf size lo l' = true) (h : ∀ x, readCells l x = readCells l' x) : l = l' := by
  induction l generalizing lo l' with
  | nil =>
    cases l' with
    | nil => rfl
    | cons c' rest' =>
      obtain ⟨b, u⟩ := c'
      have hb := h b
      simp only [readCells, if_true] at hb
      exact absurd hb.symm (readCells_head hl').1
  | cons c rest ih =>
    obtain ⟨a, v⟩ := c
    obtain ⟨hv, hla, has, hr⟩ := readCells_head hl
    cases l' with
    | nil =>
      have ha := h a
      simp only [readCells, if_true] at ha
      exact absurd ha hv
    | cons c' rest' =>
      obtain ⟨b, u⟩ := c'
      obtain ⟨hu, hlb, hbs, hr'⟩ := readCells_head hl'
      have hab : a = b := by
        rcases Nat.lt_trichotomy a b with hlt | heq | hgt
        · have ha := h a
          simp only [readCells, if_true, if_neg (Nat.ne_of_lt hlt)] at ha
          rw [readCells_below hr' (by omega)] at ha
          exact absurd ha hv
        · exact heq
        · have hb := h b
          simp only [readCells, if_true, if_neg (Nat.ne_of_lt hgt)] at hb
          rw [readCells_below hr (by omega)] at hb
          exact absurd hb.symm hu
      subst hab
      have hvu : v = u := by simpa [readCells] using h a
      subst hvu
      have := ih hr hr' (fun x => by
        by_cases hx : x = a
        · rw [hx, readCells_below hr (by omega), readCells_below hr' (by omega)]
        · simpa [readCells, hx] using h x)
      rw [this]

/-- Two canonical ranges of one size with the same bytes are the same data. -/
theorem Memory.ext_read {m m' : Memory} (h : m.wf = true) (h' : m'.wf = true)
    (hs : m.size = m'.size) (hr : ∀ x, m.read x = m'.read x) : m = m' := by
  obtain ⟨size, cells⟩ := m
  obtain ⟨size', cells'⟩ := m'
  simp only at hs
  subst hs
  simp only [Memory.mk.injEq, true_and]
  exact cells_ext h h' hr

end Sys2Proof
end

