-- ==== Sys2Proof/Laws/Ops.lean ====
section
/-! SUPPORT. One lemma per shared operation: everything it can do, which later proofs cite. -/

namespace Sys2Proof.Machine

/-! ## When an instruction completes -/

theorem whenRunning_next {s t u : State} :
    whenRunning s t = .next u ↔ s.phase = .running ∧ t = u := by
  unfold whenRunning
  split
  · rename_i h
    simp [h]
  · rename_i h
    simp [h]

theorem whenRunning_of_running {s : State} (h : s.phase = .running) (t : State) :
    whenRunning s t = .next t := if_pos h

theorem whenRunning_refused {s : State} (h : s.phase ≠ .running) (t : State) :
    whenRunning s t = .refused .notRunning := if_neg h

theorem whenRunning_no_fault (s t : State) (f : Fault) : whenRunning s t ≠ .fault f := by
  unfold whenRunning
  split <;> simp

theorem whenInitialized_of {s : State} (h : s.phase ≠ .uninit) (o : Outcome) :
    whenInitialized s o = o := if_neg h

theorem whenInitialized_refused {s : State} (h : s.phase = .uninit) (o : Outcome) :
    whenInitialized s o = .refused .notInitialized := if_pos h

theorem whenInitialized_next {s u : State} {o : Outcome} :
    whenInitialized s o = .next u ↔ s.phase ≠ .uninit ∧ o = .next u := by
  unfold whenInitialized
  split
  · rename_i h
    simp [h]
  · rename_i h
    simp [h]

/-! ## Storage -/

theorem memRead_next {sp : Space} {a : Nat} {s t : State} :
    memRead sp a s = .next t ↔ ∃ v, s.byteAt sp a = some v ∧ t = s.answer (.byte v) := by
  unfold memRead
  split
  · rename_i v h
    simp only [Host.Outcome.next.injEq, h, Option.some.injEq]
    constructor
    · rintro rfl
      exact ⟨v, rfl, rfl⟩
    · rintro ⟨_, rfl, rfl⟩
      rfl
  · rename_i h
    simp [h]

theorem memWrite_next {sp : Space} {a : Nat} {v : Byte} {s t : State} :
    memWrite sp a v s = .next t ↔
      ∃ m, s.storage sp = some m ∧ a < m.size ∧ t = s.withRAM sp (m.write a v) := by
  unfold memWrite
  split
  · rename_i h
    simp [h]
  · rename_i m h
    simp only [h, Option.some.injEq, exists_eq_left']
    split
    · rename_i ha
      simp only [Host.Outcome.next.injEq, ha, true_and]
      exact eq_comm
    · rename_i ha
      simp [ha]

@[simp] theorem answer_storage (s : State) (r : Reply) (sp : Space) :
    (s.answer r).storage sp = s.storage sp := by cases sp <;> rfl

@[simp] theorem answer_byteAt (s : State) (r : Reply) (sp : Space) (a : Nat) :
    (s.answer r).byteAt sp a = s.byteAt sp a := by unfold State.byteAt; rw [answer_storage]

/-- Two states with the same storage have the same bytes. -/
theorem byteAt_congr {s t : State} {sp : Space} (h : t.storage sp = s.storage sp) (a : Nat) :
    t.byteAt sp a = s.byteAt sp a := by
  unfold State.byteAt
  rw [h]

theorem byteAt_of_storage {s : State} {sp : Space} {m : Memory} (h : s.storage sp = some m) (a : Nat) :
    s.byteAt sp a = m.load a := by
  unfold State.byteAt
  rw [h]
  rfl

/-! ## Bank requests -/

/-- The one-unit program-RAM request gives the wrapped bank. -/
theorem prgRamUnit_eq (b : Int) (size : Nat) : prgRamUnit b size = wrap b (maxUnit size prgExp) := by
  unfold prgRamUnit
  rw [request_get 1 0 b prgExp size _ 0 (by omega)]
  simp

/-! ## Scanline counter -/

theorem counterUpdate_eq (s : State) :
    counterUpdate s =
      { s with
        irqCounter := nextCount s.irqLatch s.irqCounter s.irqReloadPending
        irqReloadPending := false
        irqOut :=
          assertFires s.cfg.altMode s.irqEnabled s.irqCounter s.irqReloadPending
              (nextCount s.irqLatch s.irqCounter s.irqReloadPending) || s.irqOut } := by
  unfold counterUpdate assertCheck
  simp only
  split
  · rename_i h
    simp [assertIRQ, h]
  · rename_i h
    simp [h]

/-- The counter goes down by one from a non-zero value unless it reloads, so it never wraps. -/
theorem nextCount_toNat (latch old : Byte) (reload : Bool) :
    (nextCount latch old reload).toNat =
      if old = 0 ∨ reload = true then latch.toNat else old.toNat - 1 := by
  unfold nextCount
  split
  · rfl
  · rename_i h
    have h0 : old ≠ 0 := fun h' => h (Or.inl h')
    have : old.toNat ≠ 0 := fun h' => h0 (BitVec.eq_of_toNat_eq (by simpa using h'))
    have hlt := old.isLt
    have h1 : (1 : Byte).toNat = 1 := rfl
    rw [BitVec.toNat_sub, h1]
    omega

/-! ## Reset -/

/-- What `reset()` leaves in every field it writes, and that it writes no other. -/
theorem resetBlock_eq (s : State) :
    resetBlock s =
      { s with
        prgMap := request 4 0 (-1) prgExp s.cfg.descriptor.prgROMSize s.prgMap
        prgRamMap :=
          if s.cfg.descriptor.prgRAMSize > 0 then some (prgRamUnit 0 s.cfg.descriptor.prgRAMSize)
          else none
        chrMap := request 8 0 0 chrExp s.cfg.descriptor.chrPhys s.chrMap
        command := 0
        irqCounter := 0
        irqLatch := 0
        irqReloadPending := false
        irqEnabled := false
        irqEdgeFilterDelay := 0
        irqOut := false } := by
  simp only [resetBlock, clearIRQ, clearRegisters, chrRequest, prgRamRequest, prgRequest]
  congr 1

/-! ## powerUp, field by field (43_host_interface.md R202, 70_reset_and_hazards.md R260) -/

@[simp] theorem poweredUp_cfg (s : State) :
    (poweredUp s).cfg = s.cfg := by simp [poweredUp, resetBlock]
@[simp] theorem poweredUp_command (s : State) :
    (poweredUp s).command = 0 := by simp [poweredUp, resetBlock]
@[simp] theorem poweredUp_irqLatch (s : State) :
    (poweredUp s).irqLatch = 0 := by simp [poweredUp, resetBlock]
@[simp] theorem poweredUp_irqCounter (s : State) :
    (poweredUp s).irqCounter = 0 := by simp [poweredUp, resetBlock]
@[simp] theorem poweredUp_irqReloadPending (s : State) :
    (poweredUp s).irqReloadPending = false := by simp [poweredUp, resetBlock]
@[simp] theorem poweredUp_irqEnabled (s : State) :
    (poweredUp s).irqEnabled = false := by simp [poweredUp, resetBlock]
@[simp] theorem poweredUp_irqEdgeFilterDelay (s : State) :
    (poweredUp s).irqEdgeFilterDelay = 0 := by simp [poweredUp, resetBlock]
@[simp] theorem poweredUp_irqOut (s : State) :
    (poweredUp s).irqOut = false := by simp [poweredUp, resetBlock]
@[simp] theorem poweredUp_prgMap (s : State) :
    (poweredUp s).prgMap = request 4 0 (-1) prgExp s.cfg.descriptor.prgROMSize s.prgMap := by simp [poweredUp, resetBlock]
@[simp] theorem poweredUp_prgRamMap (s : State) :
    (poweredUp s).prgRamMap = if s.cfg.descriptor.prgRAMSize > 0 then some (prgRamUnit 0 s.cfg.descriptor.prgRAMSize) else none := by simp [poweredUp, resetBlock]
@[simp] theorem poweredUp_chrMap (s : State) :
    (poweredUp s).chrMap = request 8 0 0 chrExp s.cfg.descriptor.chrPhys s.chrMap := by simp [poweredUp, resetBlock]
@[simp] theorem poweredUp_ntMap (s : State) :
    (poweredUp s).ntMap = areas s.cfg.descriptor.mirroring := by simp [poweredUp, resetBlock]
@[simp] theorem poweredUp_prgRAM (s : State) :
    (poweredUp s).prgRAM = s.prgRAM.map (fun m => m.zeroFrom s.cfg.descriptor.prgRAMSizeBattery) := by simp [poweredUp, resetBlock]
@[simp] theorem poweredUp_chrRAM (s : State) :
    (poweredUp s).chrRAM = s.chrRAM.map (fun m => m.zeroFrom s.cfg.descriptor.chrRAMSizeBattery) := by simp [poweredUp, resetBlock]
@[simp] theorem poweredUp_phase (s : State) :
    (poweredUp s).phase = .running := by simp [poweredUp, resetBlock]
@[simp] theorem poweredUp_reply (s : State) :
    (poweredUp s).reply = s.reply := by simp [poweredUp, resetBlock]
@[simp] theorem poweredUp_pending (s : State) :
    (poweredUp s).pending = s.pending := by simp [poweredUp, resetBlock]
@[simp] theorem poweredUp_draw (s : State) :
    (poweredUp s).draw = s.draw := by simp [poweredUp, resetBlock]

/-! ## The battery-backed RAM -/

/-- The battery is in one of the RAMs. -/
theorem battery_space {d : Descriptor} {sp : Space} {n : Nat} (h : battery d = some (sp, n)) :
    (sp = .prgRAM ∧ n = d.prgRAMSizeBattery ∨ sp = .chrRAM ∧ n = d.chrRAMSizeBattery) ∧ 0 < n := by
  unfold battery at h
  split at h
  · simp only [Option.some.injEq, Prod.mk.injEq] at h
    exact ⟨Or.inl ⟨h.1.symm, h.2.symm⟩, by omega⟩
  · split at h
    · simp only [Option.some.injEq, Prod.mk.injEq] at h
      exact ⟨Or.inr ⟨h.1.symm, h.2.symm⟩, by omega⟩
    · simp at h

/-! ## The state after reset -/

/-- Every byte range of the state after reset is in canonical form. -/
theorem reset_memory_wf : State.reset.cfg.descriptor.romsCanonical = true ∧
    ∀ m, State.reset.prgRAM = some m → m.wf = true :=
  ⟨rfl, fun _ h => Option.some.inj h ▸ rfl⟩

/-! ## The step -/

theorem step_of_pending {s : State} {e : Event} {rest : List Event} (h : s.pending = e :: rest) :
    step s = runEvent e (s.withPending rest) := by
  unfold step runNext
  rw [h]

theorem step_of_idle {s : State} (h : s.pending = []) : step s = .refused .noTransaction := by
  unfold step runNext
  rw [h]

end Sys2Proof.Machine
end

