-- ==== Sys2Proof/Laws/PerInstr.lean ====
section
/-! SUPPORT. Per-instruction laws about the encoding. -/

namespace Sys2Proof.Laws

/-- The operands of a call fit their buses (30_encoding.md R91; 43_host_interface.md R210, R211). -/
def operandsFit : Transaction → Prop
  | .cpuw a v => a ≤ 0xFFFF ∧ v ≤ 0xFF
  | .pput p => p ≤ 0xFFFF
  | .host (.setMirroringSingleScreen a) => a < 4
  | .host (.setMirroringAreas a0 a1 a2 a3) => a0 < 4 ∧ a1 < 4 ∧ a2 < 4 ∧ a3 < 4
  | .host _ => True

theorem encodeWrite_fits (a : Addr) (v : Byte) : operandsFit (encodeWrite a v) := by
  have ha := a.isLt
  have hv := v.isLt
  simp only [operandsFit, encodeWrite]
  omega

theorem pput_fits (p : Addr) : operandsFit (.pput p.toNat) := by
  have hp := p.isLt
  simp only [operandsFit]
  omega

/-- The call an instruction encodes to is never refused for its operands. -/
def OperandsFit.Statement (i : Instr) : Prop := operandsFit (encode i)

theorem OperandsFit.bankSelect (a : Addr) (v : Byte) : OperandsFit.Statement (.bankSelect a v) := encodeWrite_fits a v
theorem OperandsFit.bankDataSf0 (a : Addr) (v : Byte) : OperandsFit.Statement (.bankDataSf0 a v) := encodeWrite_fits a v
theorem OperandsFit.bankDataSf1 (a : Addr) (v : Byte) : OperandsFit.Statement (.bankDataSf1 a v) := encodeWrite_fits a v
theorem OperandsFit.bankDataSf2 (a : Addr) (v : Byte) : OperandsFit.Statement (.bankDataSf2 a v) := encodeWrite_fits a v
theorem OperandsFit.bankDataSf3 (a : Addr) (v : Byte) : OperandsFit.Statement (.bankDataSf3 a v) := encodeWrite_fits a v
theorem OperandsFit.bankDataSf4 (a : Addr) (v : Byte) : OperandsFit.Statement (.bankDataSf4 a v) := encodeWrite_fits a v
theorem OperandsFit.bankDataSf5 (a : Addr) (v : Byte) : OperandsFit.Statement (.bankDataSf5 a v) := encodeWrite_fits a v
theorem OperandsFit.bankDataSf6 (a : Addr) (v : Byte) : OperandsFit.Statement (.bankDataSf6 a v) := encodeWrite_fits a v
theorem OperandsFit.bankDataSf7 (a : Addr) (v : Byte) : OperandsFit.Statement (.bankDataSf7 a v) := encodeWrite_fits a v
theorem OperandsFit.mirror (a : Addr) (v : Byte) : OperandsFit.Statement (.mirror a v) := encodeWrite_fits a v
theorem OperandsFit.prgramProtect (a : Addr) (v : Byte) : OperandsFit.Statement (.prgramProtect a v) := encodeWrite_fits a v
theorem OperandsFit.irqLatch (a : Addr) (v : Byte) : OperandsFit.Statement (.irqLatch a v) := encodeWrite_fits a v
theorem OperandsFit.irqReload (a : Addr) (v : Byte) : OperandsFit.Statement (.irqReload a v) := encodeWrite_fits a v
theorem OperandsFit.irqDisable (a : Addr) (v : Byte) : OperandsFit.Statement (.irqDisable a v) := encodeWrite_fits a v
theorem OperandsFit.irqEnable (a : Addr) (v : Byte) : OperandsFit.Statement (.irqEnable a v) := encodeWrite_fits a v
theorem OperandsFit.ignored (a : Addr) (v : Byte) : OperandsFit.Statement (.ignored a v) := encodeWrite_fits a v
theorem OperandsFit.tickLow (p : Addr) : OperandsFit.Statement (.tickLow p) := pput_fits p
theorem OperandsFit.tickHigh (p : Addr) : OperandsFit.Statement (.tickHigh p) := pput_fits p
theorem OperandsFit.initialise (d : Descriptor) : OperandsFit.Statement (.initialise d) := trivial
theorem OperandsFit.inject : OperandsFit.Statement .inject := trivial
theorem OperandsFit.powerUp : OperandsFit.Statement .powerUp := trivial
theorem OperandsFit.getNVRAMSize : OperandsFit.Statement .getNVRAMSize := trivial
theorem OperandsFit.getNVRAM : OperandsFit.Statement .getNVRAM := trivial
theorem OperandsFit.setNVRAM (data : List Byte) : OperandsFit.Statement (.setNVRAM data) := trivial
theorem OperandsFit.setMirroringHorizontal : OperandsFit.Statement .setMirroringHorizontal := trivial
theorem OperandsFit.setMirroringVertical : OperandsFit.Statement .setMirroringVertical := trivial
theorem OperandsFit.setMirroringFourScreen : OperandsFit.Statement .setMirroringFourScreen := trivial
theorem OperandsFit.setMirroringSingleScreen (area : Area) : OperandsFit.Statement (.setMirroringSingleScreen area) := area.isLt
theorem OperandsFit.setMirroringAreas (a0 a1 a2 a3 : Area) : OperandsFit.Statement (.setMirroringAreas a0 a1 a2 a3) :=
  ⟨a0.isLt, a1.isLt, a2.isLt, a3.isLt⟩

end Sys2Proof.Laws
end

