-- ==== Sys2Proof/Tests/Slice0.lean ====
section
/-! SUPPORT. Tests: the well-formedness checks, words of the spec, one step per vector of
95_test_vectors.md, and a witness for the hypotheses of every obligation. Expected results are the
spec's, by the id or rule each test names. -/

namespace Sys2Proof.Tests

open Sys2Proof Sys2Proof.Machine

/-! ## Helpers -/

/-- The outcome is a next state with the property. -/
def answers (o : Outcome) (p : State → Bool) : Bool :=
  match o with
  | .next t => p t
  | .fault _ => false
  | .refused _ => false

/-- The outcome is the refusal. -/
def refuses (o : Outcome) (r : Refusal) : Bool :=
  match o with
  | .next _ => false
  | .fault _ => false
  | .refused q => decide (q = r)

/-- The block with a cartridge, running, with the tables of its reset written by hand. -/
def running (d : Descriptor) (prg : Vector Nat 4) (chr : Vector Nat 8) (nt : Vector Area 4) : State :=
  { State.reset with
    cfg := { State.reset.cfg with descriptor := d }
    prgMap := prg
    prgRamMap := if d.prgRAMSize = 0 then none else some 0
    chrMap := chr
    ntMap := nt
    prgRAM := if d.prgRAMSize = 0 then none else some (Memory.zeros d.prgRAMSize)
    chrRAM := if d.chrRAMSize = 0 then none else some (Memory.zeros d.chrRAMSize) }

/-- 32 KiB program ROM, 8 KiB graphics ROM, 8 KiB program RAM with a 4-byte battery part (program P6). -/
def batteryDescriptor : Descriptor :=
  { resetDescriptor with
    prgROMSize := 0x8000, chrROMSize := 0x2000, prgRAMSizeBattery := 4, mirroring := .horizontal,
    prgROM := Memory.zeros 0x8000, chrROM := Memory.zeros 0x2000 }

def batteryState : State :=
  running batteryDescriptor #v[0, 1, 2, 3] #v[0, 1, 2, 3, 4, 5, 6, 7] #v[0, 0, 1, 1]

/-- 8 KiB program ROM, no graphics ROM, 1 KiB graphics RAM with a 2-byte battery part, no program RAM. -/
def graphicsRamDescriptor : Descriptor :=
  { resetDescriptor with
    prgROMSize := 0x2000, chrROMSize := 0, prgRAMSize := 0, chrRAMSize := 0x400,
    chrRAMSizeBattery := 2, prgROM := Memory.zeros 0x2000, chrROM := Memory.zeros 0 }

def graphicsRamState : State :=
  running graphicsRamDescriptor #v[0, 0, 0, 0] #v[0, 0, 0, 0, 0, 0, 0, 0] #v[0, 1, 0, 1]

/-- 8 KiB program ROM with one byte, no battery. -/
def plainDescriptor : Descriptor :=
  { graphicsRamDescriptor with
    chrRAMSizeBattery := 0, prgROM := { size := 0x2000, cells := [(0x1FFC, 0x34)] } }

def plainState : State :=
  running plainDescriptor #v[0, 0, 0, 0] #v[0, 0, 0, 0, 0, 0, 0, 0] #v[0, 1, 0, 1]

/-- Before the descriptor is given. -/
def uninitState : State := { State.reset with phase := .uninit, prgRAM := none }

/-- After `initialize`, before `powerUp()`. -/
def initializedState : State :=
  { batteryState with phase := .initialized, prgMap := #v[0, 0, 0, 0] }

/-- The counter, latch, reload request, enable, delay and line of 95_test_vectors.md section 2.6. -/
def irqState (counter latch : Byte) (reload enabled : Bool) (delay : BitVec 3) (line : Bool) : State :=
  { State.reset with
    irqCounter := counter, irqLatch := latch, irqReloadPending := reload, irqEnabled := enabled,
    irqEdgeFilterDelay := delay, irqOut := line }

def irqOf (s : State) : Byte × Byte × Bool × Bool × BitVec 3 × Bool :=
  (s.irqCounter, s.irqLatch, s.irqReloadPending, s.irqEnabled, s.irqEdgeFilterDelay, s.irqOut)

def withCommand (c : Byte) : State := { State.reset with command := c }

/-! ## Well-formedness: one ill-formed term for each check -/

/-- Each register row refuses an address of another slot (30_encoding.md R83). -/
theorem test_wellFormed_slots :
    (Instr.bankSelect 0x8001 0).wellFormed = false ∧ (Instr.bankDataSf0 0x8000 0).wellFormed = false ∧
    (Instr.bankDataSf1 0xA001 0).wellFormed = false ∧ (Instr.bankDataSf2 0x8000 0).wellFormed = false ∧
    (Instr.bankDataSf3 0x0001 0).wellFormed = false ∧ (Instr.bankDataSf4 0x8000 0).wellFormed = false ∧
    (Instr.bankDataSf5 0x8000 0).wellFormed = false ∧ (Instr.bankDataSf6 0x8000 0).wellFormed = false ∧
    (Instr.bankDataSf7 0xE001 0).wellFormed = false ∧ (Instr.mirror 0xA001 0).wellFormed = false ∧
    (Instr.prgramProtect 0xA000 0).wellFormed = false ∧ (Instr.irqLatch 0xC001 0).wellFormed = false ∧
    (Instr.irqReload 0xC000 0).wellFormed = false ∧ (Instr.irqDisable 0xE001 0).wellFormed = false ∧
    (Instr.irqEnable 0xE000 0).wellFormed = false ∧ (Instr.ignored 0x8000 0).wellFormed = false := by
  decide

/-- A12 is the row's (R87). -/
theorem test_wellFormed_ticks :
    (Instr.tickLow 0x1000).wellFormed = false ∧ (Instr.tickHigh 0xEFFF).wellFormed = false := by decide

/-- The row's condition on `command[2:0]` (R85). -/
theorem test_selectedBy :
    (Instr.bankDataSf6 0x8001 0).selectedBy 0x46 = true ∧
    (Instr.bankDataSf6 0x8001 0).selectedBy 0x47 = false := by decide

/-- 00_scope.md R6 item 1 (V-H-11: 24576 is no power of two; 4096 is too small). -/
theorem test_refuses_prgROMSize :
    ({ plainDescriptor with prgROMSize := 24576, prgROM := Memory.zeros 24576 } : Descriptor).wellFormed
      = false ∧
    ({ plainDescriptor with prgROMSize := 4096, prgROM := Memory.zeros 4096 } : Descriptor).wellFormed
      = false := by decide

/-- R6 item 2: no graphics storage at all, and 512 bytes. -/
theorem test_refuses_chrPhys :
    ({ plainDescriptor with chrRAMSize := 0 } : Descriptor).wellFormed = false ∧
    ({ plainDescriptor with chrROMSize := 512, chrROM := Memory.zeros 512 } : Descriptor).wellFormed
      = false := by decide

/-- R6 item 3. -/
theorem test_refuses_ramSizes :
    ({ plainDescriptor with prgRAMSize := 4096 } : Descriptor).wellFormed = false ∧
    ({ batteryDescriptor with chrRAMSize := 1536 } : Descriptor).wellFormed = false := by decide

/-- R6 item 4. -/
theorem test_refuses_batteries_beyond_ram :
    ({ batteryDescriptor with prgRAMSizeBattery := 0x2001 } : Descriptor).wellFormed = false ∧
    ({ graphicsRamDescriptor with chrRAMSizeBattery := 0x401 } : Descriptor).wellFormed = false := by
  decide

/-- R6 item 5 (V-H-12). -/
theorem test_refuses_two_batteries :
    ({ batteryDescriptor with prgRAMSizeBattery := 8192, chrRAMSize := 1024, chrRAMSizeBattery := 1024 }
      : Descriptor).wellFormed = false := by decide

/-- R6 item 6. -/
theorem test_refuses_rom_lengths :
    ({ plainDescriptor with prgROM := Memory.zeros 0x2001 } : Descriptor).wellFormed = false ∧
    ({ batteryDescriptor with chrROM := Memory.zeros 0 } : Descriptor).wellFormed = false := by decide

/-- ROM cells out of order, and a listed zero (log 7). -/
theorem test_refuses_uncanonical_rom :
    ({ plainDescriptor with prgROM := { size := 0x2000, cells := [(5, 1), (4, 1)] } } : Descriptor).wellFormed
      = false ∧
    ({ plainDescriptor with chrROM := { size := 0, cells := [(0, 1)] } } : Descriptor).wellFormed
      = false := by decide

theorem test_admits :
    resetDescriptor.wellFormed = true ∧ batteryDescriptor.wellFormed = true ∧
    graphicsRamDescriptor.wellFormed = true ∧ plainDescriptor.wellFormed = true := by decide

/-! ## Decoding: words written out from the spec's encodings (R81, R83, R87) -/

/-- `{address, value}` words of the CPUW rows: V-D-1, V-D-3 (as SF0, `command` at 0), V-D-5, P6 step 5,
P3 steps 1, 2 and 7, V-D-9 and V-D-10. -/
theorem test_decode_cpuw_words :
    decodeTableWord 24 0b100000000000000001000110 = some (.bankSelect 0x8000 0x46) ∧
    decodeTableWord 24 0x8F0103 = some (.bankDataSf0 0x8F01 0x03) ∧
    decodeTableWord 24 0xA00201 = some (.mirror 0xA002 0x01) ∧
    decodeTableWord 24 0xA00180 = some (.prgramProtect 0xA001 0x80) ∧
    decodeTableWord 24 0xC00002 = some (.irqLatch 0xC000 0x02) ∧
    decodeTableWord 24 0xC00100 = some (.irqReload 0xC001 0x00) ∧
    decodeTableWord 24 0xE00000 = some (.irqDisable 0xE000 0x00) ∧
    decodeTableWord 24 0xFFFF00 = some (.irqEnable 0xFFFF 0x00) ∧
    decodeTableWord 24 0x7FFFAA = some (.ignored 0x7FFF 0xAA) := by decide

/-- The sub-function is `command[2:0]` (R84, R85, V-W-11: `0x3A` is sub-function 2). -/
theorem test_decode_bank_data :
    decode 0xC0 (.cpuw 0x8001 0x0B) = .ok (.bankDataSf0 0x8001 0x0B) ∧
    decode 0x81 (.cpuw 0x8001 0x20) = .ok (.bankDataSf1 0x8001 0x20) ∧
    decode 0x3A (.cpuw 0x8001 0x01) = .ok (.bankDataSf2 0x8001 0x01) ∧
    decode 0x03 (.cpuw 0x8001 0x07) = .ok (.bankDataSf3 0x8001 0x07) ∧
    decode 0x84 (.cpuw 0x8001 0x90) = .ok (.bankDataSf4 0x8001 0x90) ∧
    decode 0x05 (.cpuw 0x8001 0xFF) = .ok (.bankDataSf5 0x8001 0xFF) ∧
    decode 0x46 (.cpuw 0x9FFF 0x03) = .ok (.bankDataSf6 0x9FFF 0x03) ∧
    decode 0xC7 (.cpuw 0x8001 0xFF) = .ok (.bankDataSf7 0x8001 0xFF) := by decide

/-- V-IRQ-18, V-IRQ-19. -/
theorem test_decode_ticks :
    decodeTableWord 16 0b0000111111111111 = some (.tickLow 0x0FFF) ∧
    decodeTableWord 16 0b1111000000000000 = some (.tickHigh 0xF000) := by decide

/-- R88; V-H-10. -/
theorem test_decode_host_calls :
    decode 0 (.host (.initialise plainDescriptor)) = .ok (.initialise plainDescriptor) ∧
    decode 0 (.host .inject) = .ok .inject ∧ decode 0 (.host .powerUp) = .ok .powerUp ∧
    decode 0 (.host .getNVRAMSize) = .ok .getNVRAMSize ∧ decode 0 (.host .getNVRAM) = .ok .getNVRAM ∧
    decode 0 (.host (.setNVRAM [9, 8])) = .ok (.setNVRAM [9, 8]) ∧
    decode 0 (.host .setMirroringHorizontal) = .ok .setMirroringHorizontal ∧
    decode 0 (.host .setMirroringVertical) = .ok .setMirroringVertical ∧
    decode 0 (.host .setMirroringFourScreen) = .ok .setMirroringFourScreen ∧
    decodeTableWord 8 2 = some (.setMirroringSingleScreen 2) ∧
    decodeTableWord 8 4 = none ∧
    decode 0 (.host (.setMirroringAreas 3 2 1 0)) = .ok (.setMirroringAreas 3 2 1 0) := by decide

/-- Operands outside their type are refused by name (R91, R210, R211). -/
theorem test_decode_refusals :
    decode 0 (.cpuw 0x10000 0) = .error .cpuAddressOutOfRange ∧
    decode 0 (.cpuw 0x8000 0x100) = .error .dataValueOutOfRange ∧
    decode 0 (.pput 0x10000) = .error .ppuAddressOutOfRange ∧
    decode 0 (.host (.setMirroringSingleScreen 4)) = .error .areaOutOfRange ∧
    decode 0 (.host (.setMirroringAreas 0 0 0 4)) = .error .areaOutOfRange := by decide

/-! ## Bank arithmetic -/

/-- V-B-1 to V-B-7. -/
theorem test_wrap_and_maxUnit :
    wrap (-1) 7 = 7 ∧ wrap (-2) 7 = 6 ∧ wrap 9 7 = 1 ∧ wrap 5 7 = 5 ∧ wrap 8 7 = 0 ∧
    maxUnit 0x40000 10 = 255 ∧ maxUnit 8192 13 = 0 := by decide

/-- V-B-8, V-B-9, V-B-10 and V-B-14. -/
theorem test_program_requests :
    request 4 0 (-1) 13 0x20000 (Vector.replicate 4 9) = #v[12, 13, 14, 15] ∧
    request 4 0 (-1) 13 16384 (Vector.replicate 4 9) = #v[0, 1, 0, 1] ∧
    request 4 0 (-1) 13 8192 (Vector.replicate 4 9) = #v[0, 0, 0, 0] ∧
    mapBankWindow 2 7 2 13 0x10000 (Vector.replicate 4 9) = #v[9, 9, 7, 0] := by decide

/-- V-B-11, V-B-12. -/
theorem test_graphics_requests :
    request 2 1 (-1) 10 0x20000 (Vector.replicate 8 9) = #v[9, 9, 126, 127, 9, 9, 9, 9] ∧
    request 8 0 0 10 4096 (Vector.replicate 8 9) = #v[0, 1, 2, 3, 0, 1, 2, 3] := by decide

/-! ## Register writes, one step each -/

/-- V-W-1: through the step, on the placed word. -/
theorem test_bankSelect :
    answers (step (State.reset.withFetchWord 24 0x800046))
      (fun t => decide (t = { State.reset with command := 0x46 })) = true := by decide

/-- V-W-4 and V-W-6. -/
theorem test_sf0_upper_half :
    answers (exec (.bankDataSf0 0x8001 0x0B) (withCommand 0x80))
      (fun t => decide (t.chrMap = #v[0, 1, 2, 3, 10, 11, 6, 7])) = true := by decide

theorem test_sf0_without_shift :
    answers (exec (.bankDataSf0 0x8001 0x0B)
        { withCommand 0x00 with cfg := { State.reset.cfg with chr2kTargetShift := 0 } })
      (fun t => decide (t.chrMap = #v[22, 23, 2, 3, 4, 5, 6, 7])) = true := by decide

/-- V-W-7, V-W-8. -/
theorem test_sf1 :
    answers (exec (.bankDataSf1 0x8001 0x20) (withCommand 0x01))
      (fun t => decide (t.chrMap = #v[0, 1, 32, 33, 4, 5, 6, 7])) = true ∧
    answers (exec (.bankDataSf1 0x8001 0x20) (withCommand 0x81))
      (fun t => decide (t.chrMap = #v[0, 1, 2, 3, 4, 5, 32, 33])) = true := by decide

/-- V-W-9, V-W-10. -/
theorem test_sf2 :
    answers (exec (.bankDataSf2 0x8001 0x40) (withCommand 0x02))
      (fun t => decide (t.chrMap = #v[0, 1, 2, 3, 64, 5, 6, 7])) = true ∧
    answers (exec (.bankDataSf2 0x8001 0x40) (withCommand 0x82))
      (fun t => decide (t.chrMap = #v[64, 1, 2, 3, 4, 5, 6, 7])) = true := by decide

/-- V-W-12, V-W-13. -/
theorem test_sf3 :
    answers (exec (.bankDataSf3 0x8001 0x07) (withCommand 0x03))
      (fun t => decide (t.chrMap = #v[0, 1, 2, 3, 4, 7, 6, 7])) = true ∧
    answers (exec (.bankDataSf3 0x8001 0x07) (withCommand 0x83))
      (fun t => decide (t.chrMap = #v[0, 7, 2, 3, 4, 5, 6, 7])) = true := by decide

/-- V-W-14, V-W-15. -/
theorem test_sf4 :
    answers (exec (.bankDataSf4 0x8001 0x90) (withCommand 0x04))
      (fun t => decide (t.chrMap = #v[0, 1, 2, 3, 4, 5, 16, 7])) = true ∧
    answers (exec (.bankDataSf4 0x8001 0x90) (withCommand 0x84))
      (fun t => decide (t.chrMap = #v[0, 1, 16, 3, 4, 5, 6, 7])) = true := by decide

/-- V-W-16, V-W-17. -/
theorem test_sf5 :
    answers (exec (.bankDataSf5 0x8001 0xFF) (withCommand 0x05))
      (fun t => decide (t.chrMap = #v[0, 1, 2, 3, 4, 5, 6, 127])) = true ∧
    answers (exec (.bankDataSf5 0x8001 0xFF) (withCommand 0x85))
      (fun t => decide (t.chrMap = #v[0, 1, 2, 127, 4, 5, 6, 7])) = true := by decide

/-- V-W-18, V-W-19. -/
theorem test_sf6 :
    answers (exec (.bankDataSf6 0x8001 0x03) (withCommand 0x06))
      (fun t => decide (t.prgMap = #v[3, 13, 14, 15])) = true ∧
    answers (exec (.bankDataSf6 0x8001 0x03) (withCommand 0x46))
      (fun t => decide (t.prgMap = #v[14, 13, 3, 15])) = true := by decide

/-- V-W-22, V-W-23. -/
theorem test_sf7 :
    answers (exec (.bankDataSf7 0x8001 0x25) (withCommand 0x07))
      (fun t => decide (t.prgMap = #v[12, 5, 14, 15])) = true ∧
    answers (exec (.bankDataSf7 0x8001 0xFF) (withCommand 0xC7))
      (fun t => decide (t.prgMap = #v[12, 15, 14, 15])) = true := by decide

/-- V-M-2 and V-M-3, on the current table of the other mode. -/
theorem test_mirror :
    answers (exec (.mirror 0xA000 0xFE) batteryState) (fun t => decide (t.ntMap = #v[0, 1, 0, 1])) = true ∧
    answers (exec (.mirror 0xA000 0x01) State.reset) (fun t => decide (t.ntMap = #v[0, 0, 1, 1])) = true := by
  decide

/-- V-M-4. -/
theorem test_mirror_four_screen :
    answers (exec (.mirror 0xA000 0x01)
        (running { plainDescriptor with mirroring := .fourScreen } #v[0, 0, 0, 0]
          #v[0, 0, 0, 0, 0, 0, 0, 0] #v[0, 1, 2, 3]))
      (fun t => decide (t.ntMap = #v[0, 1, 2, 3])) = true := by decide

/-- V-M-6. -/
theorem test_prgramProtect :
    answers (exec (.prgramProtect 0xA001 0x80) State.reset) (fun t => decide (t = State.reset)) = true := by
  decide

/-- V-D-10. -/
theorem test_ignored :
    answers (exec (.ignored 0x7FFF 0xFF) State.reset) (fun t => decide (t = State.reset)) = true := by decide

/-- V-R-1. -/
theorem test_irqLatch :
    answers (exec (.irqLatch 0xC000 9) (irqState 5 0 false false 4 false))
      (fun t => decide (irqOf t = (5, 9, false, false, 4, false))) = true := by decide

/-- V-R-2. -/
theorem test_irqReload :
    answers (exec (.irqReload 0xC001 0) (irqState 5 7 false false 4 false))
      (fun t => decide (irqOf t = (5, 7, true, false, 4, false))) = true := by decide

/-- V-R-4. -/
theorem test_irqDisable :
    answers (exec (.irqDisable 0xE000 0xFF) (irqState 0 7 true true 4 true))
      (fun t => decide (irqOf t = (0, 7, true, false, 4, false))) = true := by decide

/-- V-R-6, V-R-7. -/
theorem test_irqEnable :
    answers (exec (.irqEnable 0xE001 0) (irqState 0 0 false false 4 false))
      (fun t => decide (irqOf t = (0, 0, false, true, 4, false))) = true ∧
    answers (exec (.irqEnable 0xE001 0) (irqState 0 0 false true 4 true))
      (fun t => decide (irqOf t = (0, 0, false, true, 4, true))) = true := by decide

/-! ## Ticks -/

/-- V-IRQ-1, V-IRQ-2. -/
theorem test_tickLow :
    answers (exec (.tickLow 0) (irqState 0 0 false false 7 false))
      (fun t => decide (irqOf t = (0, 0, false, false, 6, false))) = true ∧
    answers (exec (.tickLow 0) (irqState 0 0 false false 0 false))
      (fun t => decide (irqOf t = (0, 0, false, false, 0, false))) = true := by decide

/-- V-IRQ-3, V-IRQ-4, V-IRQ-6 and V-IRQ-11. -/
theorem test_tickHigh_counts :
    answers (exec (.tickHigh 0x1000) (irqState 5 9 false false 0 false))
      (fun t => decide (irqOf t = (4, 9, false, false, 7, false))) = true ∧
    answers (exec (.tickHigh 0x1000) (irqState 5 9 false false 3 false))
      (fun t => decide (irqOf t = (5, 9, false, false, 7, false))) = true ∧
    answers (exec (.tickHigh 0x1000) (irqState 5 9 true false 0 false))
      (fun t => decide (irqOf t = (9, 9, false, false, 7, false))) = true ∧
    answers (exec (.tickHigh 0x1000) (irqState 0 3 false true 0 false))
      (fun t => decide (irqOf t = (3, 3, false, true, 7, false))) = true := by decide

def alternate (s : State) : State := { s with cfg := { s.cfg with altMode := true } }

/-- V-IRQ-7 to V-IRQ-10. -/
theorem test_tickHigh_fires :
    answers (exec (.tickHigh 0x1000) (irqState 0 0 false true 0 false))
      (fun t => decide (irqOf t = (0, 0, false, true, 7, true))) = true ∧
    answers (exec (.tickHigh 0x1000) (alternate (irqState 0 0 false true 0 false)))
      (fun t => decide (irqOf t = (0, 0, false, true, 7, false))) = true ∧
    answers (exec (.tickHigh 0x1000) (alternate (irqState 0 0 true true 0 false)))
      (fun t => decide (irqOf t = (0, 0, false, true, 7, true))) = true ∧
    answers (exec (.tickHigh 0x1000) (alternate (irqState 1 9 false true 0 false)))
      (fun t => decide (irqOf t = (0, 9, false, true, 7, true))) = true := by decide

/-! ## Host operations -/

/-- V-H-1 and R200: a RAM of size 0 is absent. -/
theorem test_initialise :
    refuses (exec (.initialise plainDescriptor) initializedState) .alreadyInitialized = true ∧
    answers (exec (.initialise plainDescriptor) uninitState)
      (fun t => decide (t.phase = .initialized ∧ t.prgRAM = none ∧
        t.chrRAM = some (Memory.zeros 0x400))) = true := by decide

/-- V-H-11. -/
theorem test_initialise_ill_formed :
    refuses (exec (.initialise { plainDescriptor with prgROMSize := 24576 }) uninitState)
      .illFormedDescriptor = true := by decide

theorem test_inject : answers (exec .inject uninitState) (fun t => decide (t = uninitState)) = true := by
  decide

/-- P6 step 9: the battery part stays, the rest becomes 0, the mirroring is the descriptor's again. -/
theorem test_powerUp :
    answers (exec .powerUp
        { batteryState with
          ntMap := #v[0, 1, 0, 1], command := 0x46, irqOut := true, prgMap := #v[1, 1, 1, 1],
          prgRAM := some { size := 0x2000, cells := [(0, 9), (3, 6), (4, 0x77), (0x1FFF, 0x55)] } })
      (fun t => decide (t = { batteryState with
        prgRAM := some { size := 0x2000, cells := [(0, 9), (3, 6)] } })) = true := by decide

/-- V-H-13 and the second kind of RAM. -/
theorem test_powerUp_graphics_ram :
    answers (exec .powerUp
        { graphicsRamState with
          phase := .initialized, prgRamMap := some 3,
          chrRAM := some { size := 0x400, cells := [(1, 7), (2, 8)] } })
      (fun t => decide (t = { graphicsRamState with
        chrRAM := some { size := 0x400, cells := [(1, 7)] } })) = true := by decide

/-- S6 (a), V-H-5. -/
theorem test_getNVRAMSize :
    answers (exec .getNVRAMSize plainState) (fun t => decide (t.reply = .nvramSize 0)) = true ∧
    answers (exec .getNVRAMSize graphicsRamState) (fun t => decide (t.reply = .nvramSize 2)) = true := by
  decide

/-- S6 (a), P6 step 10. -/
theorem test_getNVRAM :
    answers (exec .getNVRAM plainState) (fun t => decide (t.reply = .nvram none)) = true ∧
    answers (exec .getNVRAM
        { batteryState with
          prgRAM := some { size := 0x2000, cells := [(0, 9), (1, 8), (2, 7), (3, 6), (4, 5)] } })
      (fun t => decide (t.reply = .nvram (some [9, 8, 7, 6]))) = true := by decide

def prefix1234 : State :=
  { batteryState with prgRAM := some { size := 0x2000, cells := [(0, 1), (1, 2), (2, 3), (3, 4)] } }

/-- V-H-6, V-H-7. -/
theorem test_setNVRAM :
    answers (exec (.setNVRAM [9, 8]) prefix1234)
      (fun t => decide (t.prgRAM =
        some { size := 0x2000, cells := [(0, 9), (1, 8), (2, 3), (3, 4)] })) = true ∧
    answers (exec (.setNVRAM [5, 6, 7, 8, 9, 10]) prefix1234)
      (fun t => decide (t.prgRAM =
        some { size := 0x2000, cells := [(0, 5), (1, 6), (2, 7), (3, 8)] })) = true := by decide

/-- V-H-8. -/
theorem test_setNVRAM_without_battery :
    answers (exec (.setNVRAM [1, 2]) plainState) (fun t => decide (t = plainState)) = true := by decide

/-- V-H-9. -/
theorem test_mirroring_setters :
    answers (exec .setMirroringHorizontal State.reset) (fun t => decide (t.ntMap = #v[0, 0, 1, 1])) = true ∧
    answers (exec .setMirroringVertical batteryState) (fun t => decide (t.ntMap = #v[0, 1, 0, 1])) = true ∧
    answers (exec .setMirroringFourScreen State.reset) (fun t => decide (t.ntMap = #v[0, 1, 2, 3])) = true ∧
    answers (exec (.setMirroringSingleScreen 2) State.reset)
      (fun t => decide (t.ntMap = #v[2, 2, 2, 2])) = true ∧
    answers (exec (.setMirroringAreas 1 0 1 0) State.reset)
      (fun t => decide (t.ntMap = #v[1, 0, 1, 0])) = true := by decide

/-- V-H-2 and the calls refused before `initialize` (R202, R204). -/
theorem test_boot_order :
    refuses (exec (.bankSelect 0x8000 0) initializedState) .notRunning = true ∧
    refuses (exec (.tickHigh 0x1000) initializedState) .notRunning = true ∧
    refuses (exec .powerUp uninitState) .notInitialized = true ∧
    refuses (exec .getNVRAM uninitState) .notInitialized = true := by decide

/-! ## Window accesses and the step -/

/-- P1 step 9 in a one-bank ROM: `MR $FFFC` reads byte 0x1FFC of unit 3's bank. -/
theorem test_cpuRead_program :
    answers (runAccess (.cpuRead 0xFFFC) plainState) (fun t => decide (t.reply = .byte 0x34)) = true := by
  decide

/-- P1 step 8: `MR $C123` with `prgMap = [14, 5, 9, 15]` reads PRGROM[0x12123]. -/
theorem test_cpuRead_banked :
    answers (runAccess (.cpuRead 0xC123)
        { State.reset with
          prgMap := #v[14, 5, 9, 15]
          cfg := { State.reset.cfg with
            descriptor := { resetDescriptor with
              prgROM := { size := 0x20000, cells := [(0x12122, 1), (0x12123, 0xAB), (0x1C123, 2)] } } } })
      (fun t => decide (t.reply = .byte 0xAB)) = true := by decide

/-- P6 step 6, a read back, the unmapped window (R53) and a store to the program window (R52). -/
theorem test_program_ram_window :
    answers (runAccess (.cpuStore 0x8000 0x55) batteryState) (fun t => decide (t = batteryState)) = true ∧
    answers (runAccess (.cpuStore 0x6000 0x55) plainState) (fun t => decide (t = plainState)) = true ∧
    answers (runAccess (.cpuStore 0x7FFF 0x55) batteryState)
      (fun t => decide (t.prgRAM = some { size := 0x2000, cells := [(0x1FFF, 0x55)] })) = true ∧
    answers (runAccess (.cpuRead 0x6002) prefix1234) (fun t => decide (t.reply = .byte 3)) = true ∧
    answers (runAccess (.cpuRead 0x6000) plainState) (fun t => decide (t.reply = .notOurs)) = true := by
  decide

/-- P2 step 5: `PR $0C10` with `chrMap[3] = 127` reads CHRROM[0x1FC10]; graphics RAM takes a store. -/
theorem test_graphics_window :
    answers (runAccess (.ppuRead 0x0C10)
        { State.reset with
          chrMap := #v[10, 11, 32, 127, 64, 5, 6, 7]
          cfg := { State.reset.cfg with
            descriptor := { resetDescriptor with
              chrROM := { size := 0x20000, cells := [(0x1FC10, 0xCD)] } } } })
      (fun t => decide (t.reply = .byte 0xCD)) = true ∧
    answers (runAccess (.ppuStore 0x1C05 7) graphicsRamState)
      (fun t => decide (t.chrRAM = some { size := 0x400, cells := [(5, 7)] })) = true ∧
    answers (runAccess (.ppuStore 0x1C05 7) batteryState) (fun t => decide (t = batteryState)) = true := by
  decide

/-- R55: 0x2BFF is slot 2, 0x3EFF slot 3 (addresses repeat every 4 KiB from 0x2000). -/
theorem test_nametable_window :
    answers (runAccess (.ppuRead 0x2BFF) batteryState)
      (fun t => decide (t.reply = .nametable 1 0x3FF)) = true ∧
    answers (runAccess (.ppuStore 0x3EFF 1) State.reset)
      (fun t => decide (t.reply = .nametable 1 0x2FF)) = true := by decide

theorem test_step_without_call : refuses (step State.reset) .noTransaction = true := by decide

/-- V-W-24: a data write with no select since reset runs SF0. -/
theorem test_step_runs_placed_word :
    answers (step (State.reset.withFetchWord 24 0x80010B))
      (fun t => decide (t.chrMap = #v[10, 11, 2, 3, 4, 5, 6, 7] ∧ t.pending = [])) = true ∧
    answers (step (State.reset.withFetchWord 16 0x1000))
      (fun t => decide (t.irqEdgeFilterDelay = 7)) = true := by decide

theorem test_step_refuses_operands :
    refuses (step { State.reset with pending := [.transaction (.host (.setMirroringSingleScreen 4))] })
      (.badOperand .areaOutOfRange) = true ∧
    refuses (step { State.reset with pending := [.access (.cpuRead 0x10000)] })
      (.badOperand .cpuAddressOutOfRange) = true := by decide

/-! ## Witnesses: states and operands that meet the hypotheses of each obligation together -/

theorem battery_inv : Inv batteryState := fun _ =>
  ⟨by decide, by unfold tableFits; decide, (fun u hu => by
    obtain rfl : u = 0 := (Option.some.inj hu).symm
    decide),
    by unfold tableFits; decide, ⟨by decide, rfl, rfl⟩, rfl, fun _ => by decide⟩

theorem graphicsRam_inv : Inv graphicsRamState := fun _ =>
  ⟨by decide, by unfold tableFits; decide, (fun u hu => by cases hu), by unfold tableFits; decide, rfl,
    ⟨by decide, rfl, rfl⟩, fun _ => by decide⟩

theorem plain_inv : Inv plainState := fun _ =>
  ⟨by decide, by unfold tableFits; decide, (fun u hu => by cases hu), by unfold tableFits; decide, rfl,
    ⟨by decide, rfl, rfl⟩, fun _ => by decide⟩

theorem initialized_inv : Inv initializedState := fun _ =>
  ⟨by decide, by unfold tableFits; decide, (fun u hu => by
    obtain rfl : u = 0 := (Option.some.inj hu).symm
    decide),
    by unfold tableFits; decide, ⟨by decide, rfl, rfl⟩, rfl, fun h => by cases h⟩

theorem uninit_inv : Inv uninitState := fun h => absurd rfl h

/-- The state with `t` as the driver's only call. -/
def withCall (s : State) (t : Transaction) : State := { s with pending := [.transaction t] }

/-- The state with `x` as the driver's only call. -/
def withAccess (s : State) (x : Access) : State := { s with pending := [.access x] }

theorem answers_next {o : Outcome} {p : State → Bool} (h : answers o p = true) :
    ∃ t, o = .next t ∧ p t = true := by
  cases o with
  | next t => exact ⟨t, rfl, h⟩
  | fault f => cases h
  | refused r => cases h

theorem completes {o : Outcome} (h : answers o (fun _ => true) = true) : ∃ t, o = .next t :=
  let ⟨t, ht, _⟩ := answers_next h
  ⟨t, ht⟩

theorem test_witness_DecodeOfEncodeIsIdentity :
    ((Instr.bankDataSf6 0x9FFF 0x03).wellFormed = true ∧
      (Instr.bankDataSf6 0x9FFF 0x03).selectedBy 0x46 = true) ∧
    ((Instr.tickHigh 0xF000).wellFormed = true ∧ (Instr.tickHigh 0xF000).selectedBy 0 = true) ∧
    ((Instr.initialise batteryDescriptor).wellFormed = true ∧
      (Instr.initialise batteryDescriptor).selectedBy 0 = true) := by decide

theorem test_witness_EncodeOfDecodeIsIdentity :
    decode 0x46 (.cpuw 0x8001 0x03) = .ok (.bankDataSf6 0x8001 0x03) := by decide

theorem test_witness_TableRowsAgreeWithSlots :
    (⟨0xE00100, 0xA00100, .prgramProtect⟩ : CpuwRow) ∈ cpuwRows := by decide

/-- The lowest and the highest address of every slot. -/
theorem test_witness_SlotTableSelectsInstruction :
    ((0x8000 : Addr) &&& 0xE001 = 0x8000 ∧ (0x9FFE : Addr) &&& 0xE001 = 0x8000) ∧
    ((0x8001 : Addr) &&& 0xE001 = 0x8001 ∧ (0x9FFF : Addr) &&& 0xE001 = 0x8001) ∧
    ((0xA000 : Addr) &&& 0xE001 = 0xA000 ∧ (0xBFFE : Addr) &&& 0xE001 = 0xA000) ∧
    ((0xA001 : Addr) &&& 0xE001 = 0xA001 ∧ (0xBFFF : Addr) &&& 0xE001 = 0xA001) ∧
    ((0xC000 : Addr) &&& 0xE001 = 0xC000 ∧ (0xDFFE : Addr) &&& 0xE001 = 0xC000) ∧
    ((0xC001 : Addr) &&& 0xE001 = 0xC001 ∧ (0xDFFF : Addr) &&& 0xE001 = 0xC001) ∧
    ((0xE000 : Addr) &&& 0xE001 = 0xE000 ∧ (0xFFFE : Addr) &&& 0xE001 = 0xE000) ∧
    ((0xE001 : Addr) &&& 0xE001 = 0xE001 ∧ (0xFFFF : Addr) &&& 0xE001 = 0xE001) ∧
    ((0x0000 : Addr).getLsbD 15 = false ∧ (0x7FFF : Addr).getLsbD 15 = false) := by decide

theorem test_witness_BankDataDispatchesOnLatchedCommand :
    (0x8001 : Addr) &&& 0xE001 = 0x8001 ∧ (0xF8 : Byte).toNat % 8 = 0 ∧ (0x01 : Byte).toNat % 8 = 1 ∧
    (0x42 : Byte).toNat % 8 = 2 ∧ (0x83 : Byte).toNat % 8 = 3 ∧ (0x04 : Byte).toNat % 8 = 4 ∧
    (0x3D : Byte).toNat % 8 = 5 ∧ (0x46 : Byte).toNat % 8 = 6 ∧ (0xFF : Byte).toNat % 8 = 7 := by decide

/-- Both branches of the tick's decoding. -/
theorem test_witness_TickDecodesByBitTwelve :
    (0x1000 : Addr).toNat / 4096 % 2 = 1 ∧ (0xEFFF : Addr).toNat / 4096 % 2 = 0 := by decide

theorem test_witness_StepRunsDecodedInstruction :
    ((withCall batteryState (.cpuw 0xC000 4)).pending = .transaction (.cpuw 0xC000 4) :: [] ∧
      decode batteryState.command (.cpuw 0xC000 4) = .ok (.irqLatch 0xC000 4)) ∧
    (withAccess batteryState (.cpuRead 0xFFFC)).pending = .access (.cpuRead 0xFFFC) :: [] := by decide

theorem test_witness_OutOfRangeOperandsAreRefused :
    ((withCall batteryState (.cpuw 0x10000 0)).pending = .transaction (.cpuw 0x10000 0) :: [] ∧
      0xFFFF < 0x10000) ∧
    ((withCall batteryState (.cpuw 0x8000 0x100)).pending = .transaction (.cpuw 0x8000 0x100) :: [] ∧
      0xFF < 0x100) ∧
    ((withCall batteryState (.pput 0x10000)).pending = .transaction (.pput 0x10000) :: [] ∧
      0xFFFF < 0x10000) := by decide

theorem test_witness_StepConsumesOneCall :
    ∃ t, step (withCall batteryState (.cpuw 0xC000 4)) = .next t :=
  completes (by decide)

/-- Several units, and one. -/
theorem test_witness_DestinationBanksWrap :
    (13 ≤ 16 ∧ 2 ≤ 2 ^ 16 >>> 13) ∧ (13 ≤ 13 ∧ 2 ^ 13 >>> 13 = 1) := by decide

/-- The narrowest width that holds the mask, and a wider one. -/
theorem test_witness_WrapIsTwosComplementAnd : 4 ≤ 4 ∧ 4 ≤ 16 := by decide

/-- The hypothesis of BankSelectLatchesCommand, MirrorWriteSelectsMirroring, CallsWithoutEffect,
LatchAndReloadWrites, EnableAndDisableWrites, LowTickLowersDelay and EdgeUpdatesOnce. -/
theorem test_witness_running : batteryState.phase = .running := rfl

/-- The hypotheses of TwoKiBGraphicsBanks, OneKiBGraphicsBanks and ProgramBanks, with a graphics ROM and
without. -/
theorem test_witness_banks :
    (batteryState.phase = .running ∧ batteryState.cfg.descriptor.wellFormed = true) ∧
    (graphicsRamState.phase = .running ∧ graphicsRamState.cfg.descriptor.wellFormed = true) := by decide

theorem test_witness_OneKiBGraphicsBanks :
    (Instr.bankDataSf5 0x8001 0xFF, 3) ∈ [(Instr.bankDataSf2 0x8001 0xFF, 0),
      (Instr.bankDataSf3 0x8001 0xFF, 1), (Instr.bankDataSf4 0x8001 0xFF, 2),
      (Instr.bankDataSf5 0x8001 0xFF, 3)] := by decide

/-- The ends of both ranges of sub-functions. -/
theorem test_witness_SourceWindowFormulasAgree :
    (0xF8 : Byte).toNat % 8 < 2 ∧ (0x81 : Byte).toNat % 8 < 2 ∧
    (2 ≤ (0x02 : Byte).toNat % 8 ∧ (0x02 : Byte).toNat % 8 < 6) ∧
    (2 ≤ (0xFD : Byte).toNat % 8 ∧ (0xFD : Byte).toNat % 8 < 6) := by decide

/-- P1 steps 1 and 2. -/
theorem test_witness_SelectThenDataRunsLatchedSubFunction :
    ({ batteryState with pending := [.transaction (.cpuw 0x8000 6), .transaction (.cpuw 0x8001 3)] }
      : State).pending =
        .transaction (.cpuw 0x8000 (6 : Byte).toNat) :: .transaction (.cpuw 0x8001 (3 : Byte).toNat) :: [] ∧
    batteryState.phase = .running := by decide

theorem test_witness_BusTransactionsNeedRunning :
    isBusTransaction (.tickLow 0) = true ∧ isBusTransaction (.irqEnable 0xE001 0) = true ∧
    initializedState.phase ≠ .running ∧ uninitState.phase ≠ .running := by decide

/-- The shortest delay that filters. -/
theorem test_witness_FilteredHighTickRestartsWindow :
    (irqState 5 9 false false 1 false).phase = .running ∧
    (irqState 5 9 false false 1 false).irqEdgeFilterDelay ≠ 0 := by decide

/-- The hypotheses of HighTickUpdatesCounter and LatchAfterReloadRequestIsLoaded. -/
theorem test_witness_HighTickUpdatesCounter :
    (irqState 1 9 false true 0 false).phase = .running ∧
    (irqState 1 9 false true 0 false).irqEdgeFilterDelay = 0 := by decide

/-- V-IRQ-7 and V-IRQ-8, the one case where the variants differ. -/
theorem test_witness_ChipVariantsDifferOnlyInEdgeCase :
    (irqState 0 0 false true 0 false).phase = .running ∧
    (irqState 0 0 false true 0 false).irqEdgeFilterDelay = 0 ∧
    (∃ n, exec (.tickHigh 0x1000)
      { irqState 0 0 false true 0 false with
        cfg := { (irqState 0 0 false true 0 false).cfg with altMode := false } } = .next n) ∧
    ∃ l, exec (.tickHigh 0x1000)
      { irqState 0 0 false true 0 false with
        cfg := { (irqState 0 0 false true 0 false).cfg with altMode := true } } = .next l :=
  ⟨rfl, rfl, completes (by decide), completes (by decide)⟩

/-- V-IRQ-16 with a register write between the low ticks, V-IRQ-15, and a high tick right after
`powerUp`. -/
theorem test_witness_EdgeCountsAfterSevenLows :
    (∃ h m, exec (.tickHigh 0x1000) (irqState 4 4 false true 0 false) = .next h ∧
      execAll (.irqLatch 0xC000 4 :: List.replicate 7 (.tickLow 0)) h = .next m) ∧
    7 ≤ (Instr.irqLatch 0xC000 4 :: List.replicate 7 (.tickLow 0)).countP isLowTick ∧
    (∀ i ∈ Instr.irqLatch 0xC000 4 :: List.replicate 7 (.tickLow 0), restartsWindow i = false) ∧
    (∃ h m, exec (.tickHigh 0x1000) (irqState 4 4 false true 0 false) = .next h ∧
      execAll (List.replicate 6 (.tickLow 0)) h = .next m) ∧
    (List.replicate 6 (Instr.tickLow 0)).countP isLowTick < 7 ∧
    (∃ h, exec .powerUp batteryState = .next h ∧ execAll [] h = .next h) ∧
    restartsWindow .powerUp = true ∧ restartsWindow (.tickHigh 0x1000) = true ∧
    (irqState 4 4 false true 0 false).phase = .running := by
  refine ⟨?_, by decide, by decide, ?_, by decide, ?_, rfl, rfl, rfl⟩
  · obtain ⟨h, hh, hm⟩ := answers_next
      (p := fun h => answers (execAll (.irqLatch 0xC000 4 :: List.replicate 7 (.tickLow 0)) h)
        (fun _ => true))
      (o := exec (.tickHigh 0x1000) (irqState 4 4 false true 0 false)) (by decide)
    obtain ⟨m, hm, _⟩ := answers_next hm
    exact ⟨h, m, hh, hm⟩
  · obtain ⟨h, hh, hm⟩ := answers_next
      (p := fun h => answers (execAll (List.replicate 6 (.tickLow 0)) h) (fun _ => true))
      (o := exec (.tickHigh 0x1000) (irqState 4 4 false true 0 false)) (by decide)
    obtain ⟨m, hm, _⟩ := answers_next hm
    exact ⟨h, m, hh, hm⟩
  · obtain ⟨h, hh⟩ := completes (o := exec .powerUp batteryState) (by decide)
    exact ⟨h, hh, rfl⟩

/-- S4: latch 4, from the first edge to the fifth. -/
theorem test_witness_CounterRoundTripRaisesLine :
    (irqState 0 4 false true 0 false).phase = .running ∧
    (irqState 0 4 false true 0 false).irqEnabled = true ∧
    (irqState 0 4 false true 0 false).irqOut = false ∧
    (irqState 0 4 false true 0 false).irqCounter = 0 ∧
    (irqState 0 4 false true 0 false).irqReloadPending = false ∧
    (irqState 0 4 false true 0 false).irqLatch ≠ 0 ∧
    (1 ≤ 1 ∧ 1 ≤ (irqState 0 4 false true 0 false).irqLatch.toNat + 1) ∧
    (1 ≤ 5 ∧ 5 ≤ (irqState 0 4 false true 0 false).irqLatch.toNat + 1) := by decide

/-- The hypotheses of InitializeAllocates, InitialRamIsAnyBytes and BootOrderRefusals, the last for
every clause. -/
theorem test_witness_initialise :
    uninitState.phase = .uninit ∧ batteryDescriptor.wellFormed = true ∧
    graphicsRamDescriptor.wellFormed = true ∧ initializedState.phase ≠ .uninit ∧
    ({ plainDescriptor with prgROMSize := 24576 } : Descriptor).wellFormed = false := by decide

/-- With a graphics ROM and without, and one descriptor that is refused. -/
theorem test_witness_AdmittedDescriptors :
    (batteryDescriptor.romsCanonical = true ∧ 0 < batteryDescriptor.chrROMSize) ∧
    (graphicsRamDescriptor.romsCanonical = true ∧ graphicsRamDescriptor.chrROMSize = 0) ∧
    ({ batteryDescriptor with prgROMSize := 24576 } : Descriptor).romsCanonical = true := by decide

/-- The hypotheses of PowerUpResetsBlock, with program RAM and without, and one descriptor for each kind
of mirroring. -/
theorem test_witness_PowerUpResetsBlock :
    (initializedState.phase ≠ .uninit ∧ initializedState.cfg.descriptor.wellFormed = true ∧
      initializedState.cfg.descriptor.mirroring = .horizontal) ∧
    (graphicsRamState.phase ≠ .uninit ∧ graphicsRamState.cfg.descriptor.wellFormed = true ∧
      graphicsRamState.cfg.descriptor.mirroring = .vertical) ∧
    ({ batteryDescriptor with mirroring := .fourScreen } : Descriptor).wellFormed = true ∧
    ({ batteryDescriptor with mirroring := .singleScreen 3 } : Descriptor).wellFormed = true := by decide

theorem test_witness_PowerUpKeepsBatteryBytes :
    initializedState.phase ≠ .uninit ∧ ∃ t, exec .powerUp initializedState = .next t :=
  ⟨by decide, completes (by decide)⟩

theorem test_witness_ResetStateIsPowerUp :
    ({ State.reset with phase := .initialized, command := 0x46 } : State).phase ≠ .uninit ∧
    ({ State.reset with phase := .initialized, command := 0x46 } : State).cfg = State.reset.cfg ∧
    ({ State.reset with phase := .initialized, command := 0x46 } : State).prgRAM =
      some (Memory.zeros 0x2000) ∧
    (Memory.zeros 0x2000).size = 0x2000 ∧
    ({ State.reset with phase := .initialized, command := 0x46 } : State).chrRAM = none := by decide

/-- The hypotheses of NvramSizeIsBatterySize, GetNvramAnswersBatteryBytes, SetNvramCopiesBytes and
NvramSurvivesUserReset: a battery in each RAM, and none. -/
theorem test_witness_nvram :
    (batteryState.phase ≠ .uninit ∧ Inv batteryState ∧
      battery batteryState.cfg.descriptor = some (.prgRAM, 4)) ∧
    (graphicsRamState.phase ≠ .uninit ∧ Inv graphicsRamState ∧
      battery graphicsRamState.cfg.descriptor = some (.chrRAM, 2)) ∧
    (plainState.phase ≠ .uninit ∧ Inv plainState ∧ battery plainState.cfg.descriptor = none) ∧
    (initializedState.phase ≠ .uninit ∧ Inv initializedState) :=
  ⟨⟨by decide, battery_inv, by decide⟩, ⟨by decide, graphicsRam_inv, by decide⟩,
    ⟨by decide, plain_inv, by decide⟩, ⟨by decide, initialized_inv⟩⟩

/-- The first and the last byte inside and outside the copied part of `setNVRAM [9, 8]`. -/
theorem test_witness_SetNvramCopiesBytes :
    1 < min ([9, 8] : List Byte).length 4 ∧ min ([9, 8] : List Byte).length 4 ≤ 2 ∧
    3 < min ([5, 6, 7, 8, 9, 10] : List Byte).length 4 ∧
    (∀ n, battery batteryState.cfg.descriptor ≠ some (Space.chrRAM, n)) :=
  ⟨by decide, by decide, by decide, fun n h => by cases h⟩

theorem test_witness_MirroringSetters :
    ((withCall batteryState (.host (.setMirroringSingleScreen 4))).pending =
      .transaction (.host (.setMirroringSingleScreen 4)) :: [] ∧ 4 ≤ 4) ∧
    (withCall batteryState (.host (.setMirroringAreas 0 1 2 4))).pending =
      .transaction (.host (.setMirroringAreas 0 1 2 4)) :: [] := by decide

/-- The lowest and the highest address of the program window. -/
theorem test_witness_ProgramWindowRead :
    batteryState.phase ≠ .uninit ∧ Inv batteryState ∧
    (0x8000 ≤ 0x8000 ∧ 0x8000 ≤ 0xFFFF ∧ (0 : Fin 4).val = (0x8000 - 0x8000) / 8192) ∧
    (0x8000 ≤ 0xFFFF ∧ 0xFFFF ≤ 0xFFFF ∧ (3 : Fin 4).val = (0xFFFF - 0x8000) / 8192) :=
  ⟨by decide, battery_inv, by decide, by decide⟩

/-- The ends of each range: the mapped and the unmapped program-RAM window, the addresses below it and
the program window. -/
theorem test_witness_ProgramRamWindow :
    (batteryState.phase ≠ .uninit ∧ Inv batteryState ∧ batteryState.prgRamMap = some 0) ∧
    (graphicsRamState.phase ≠ .uninit ∧ Inv graphicsRamState ∧ graphicsRamState.prgRamMap = none) ∧
    (0x6000 ≤ 0x6000 ∧ 0x6000 ≤ 0x7FFF) ∧ (0x6000 ≤ 0x7FFF ∧ 0x7FFF ≤ 0x7FFF) ∧
    (0x5FFF < 0x6000 ∧ 0x5FFF ≤ 0xFFFF) ∧ (0x8000 ≤ 0x8000 ∧ 0x8000 ≤ 0xFFFF) ∧ 0xFFFF ≤ 0xFFFF :=
  ⟨⟨by decide, battery_inv, rfl⟩, ⟨by decide, graphicsRam_inv, rfl⟩, by decide, by decide, by decide,
    by decide, by decide⟩

/-- The ends of the graphics window and of its last repetition, with a graphics ROM and without. -/
theorem test_witness_GraphicsWindow :
    (batteryState.phase ≠ .uninit ∧ Inv batteryState ∧ 0 < batteryState.cfg.descriptor.chrROMSize) ∧
    (graphicsRamState.phase ≠ .uninit ∧ Inv graphicsRamState ∧
      graphicsRamState.cfg.descriptor.chrROMSize = 0) ∧
    (0x0000 % 0x4000 < 0x2000 ∧ (0 : Fin 8).val = 0x0000 % 0x2000 / 1024) ∧
    (0xDFFF ≤ 0xFFFF ∧ 0xDFFF % 0x4000 < 0x2000 ∧ (7 : Fin 8).val = 0xDFFF % 0x2000 / 1024) :=
  ⟨⟨by decide, battery_inv, by decide⟩, ⟨by decide, graphicsRam_inv, rfl⟩, by decide, by decide⟩

/-- The ends of the nametable window. -/
theorem test_witness_NametableWindow :
    batteryState.phase ≠ .uninit ∧
    (0x2000 ≤ 0x2000 % 0x4000 ∧ 0x2000 % 0x4000 < 0x3F00 ∧
      (0 : Fin 4).val = (0x2000 % 0x4000 - 0x2000) / 1024 % 4) ∧
    (0xFEFF ≤ 0xFFFF ∧ 0x2000 ≤ 0xFEFF % 0x4000 ∧ 0xFEFF % 0x4000 < 0x3F00 ∧
      (3 : Fin 4).val = (0xFEFF % 0x4000 - 0x2000) / 1024 % 4) := by decide

theorem batteryCall_inv (t : Transaction) : Inv (withCall batteryState t) := fun h =>
  let b := battery_inv h
  ⟨b.admitted, b.prgMap, b.prgRamMap, b.chrMap, b.prgRAM, b.chrRAM, b.topUnit⟩

theorem initializedCall_inv (t : Transaction) : Inv (withCall initializedState t) := fun h =>
  let b := initialized_inv h
  ⟨b.admitted, b.prgMap, b.prgRamMap, b.chrMap, b.prgRAM, b.chrRAM, b.topUnit⟩

/-- The hypotheses of StepKeepsBlockInvariant and StepNeverFaults: a bank write of a running block, and
an `initialize` of one without a descriptor. -/
theorem test_witness_StepKeepsBlockInvariant :
    (Inv (withCall batteryState (.cpuw 0x8001 0x0B)) ∧
      ∃ t, step (withCall batteryState (.cpuw 0x8001 0x0B)) = .next t) ∧
    (Inv (withCall uninitState (.host (.initialise batteryDescriptor))) ∧
      ∃ t, step (withCall uninitState (.host (.initialise batteryDescriptor))) = .next t) := by
  exact ⟨⟨batteryCall_inv _, completes (by decide)⟩, fun h => absurd rfl h, completes (by decide)⟩

theorem test_witness_RunningBlockCompletesEveryCall :
    Inv (withCall batteryState (.host .powerUp)) ∧
    (withCall batteryState (.host .powerUp)).phase = .running ∧
    (withCall batteryState (.host .powerUp)).pending = .transaction (.host .powerUp) :: [] ∧
    decode (withCall batteryState (.host .powerUp)).command (.host .powerUp) = .ok .powerUp ∧
    ∀ d, Instr.powerUp ≠ .initialise d :=
  ⟨batteryCall_inv _, rfl, rfl, rfl, fun _ h => by cases h⟩

/-- The line falls by IRQ_DISABLE and by `powerUp`, and rises by a high tick. -/
theorem test_witness_LineChangesOnlyByItsRules :
    (∃ t, step (withCall (irqState 0 4 false true 0 true) (.cpuw 0xE000 0)) = .next t ∧
      t.irqOut ≠ true) ∧
    (∃ t, step (withCall (irqState 0 4 false true 0 true) (.host .powerUp)) = .next t ∧
      t.irqOut ≠ true) ∧
    (∃ t, step (withCall (irqState 1 4 false true 0 false) (.pput 0x1000)) = .next t ∧
      t.irqOut ≠ false) ∧
    (irqState 1 4 false true 0 false).phase ≠ .uninit := by
  refine ⟨?_, ?_, ?_, by decide⟩
  · obtain ⟨t, h, ht⟩ := answers_next (p := fun t => !t.irqOut)
      (o := step (withCall (irqState 0 4 false true 0 true) (.cpuw 0xE000 0))) (by decide)
    exact ⟨t, h, by simpa using ht⟩
  · obtain ⟨t, h, ht⟩ := answers_next (p := fun t => !t.irqOut)
      (o := step (withCall (irqState 0 4 false true 0 true) (.host .powerUp))) (by decide)
    exact ⟨t, h, by simpa using ht⟩
  · obtain ⟨t, h, ht⟩ := answers_next (p := fun t => t.irqOut)
      (o := step (withCall (irqState 1 4 false true 0 false) (.pput 0x1000))) (by decide)
    exact ⟨t, h, by simpa using ht⟩

/-- The hypotheses of FieldsChangeOnlyByTheirWriters and InstructionsLeaveStorageAlone. -/
theorem test_witness_FieldsChangeOnlyByTheirWriters :
    batteryState.phase ≠ .uninit ∧ (∃ t, exec (.tickHigh 0x1000) batteryState = .next t) ∧
    Instr.tickHigh 0x1000 ≠ .powerUp ∧ (∀ d, Instr.tickHigh 0x1000 ≠ .initialise d) ∧
    ∀ data, Instr.tickHigh 0x1000 ≠ .setNVRAM data :=
  ⟨by decide, completes (by decide), by decide, (fun _ h => by cases h),
    fun _ h => by cases h⟩

/-- The first `powerUp` moves unit 3 from the value it showed before to the last bank. -/
theorem test_witness_TopProgramUnitIsFixed :
    (withCall initializedState (.host .powerUp)).phase ≠ .uninit ∧
    ∃ t, step (withCall initializedState (.host .powerUp)) = .next t ∧
      t.prgMap[3] ≠ (withCall initializedState (.host .powerUp)).prgMap[3] := by
  refine ⟨by decide, ?_⟩
  obtain ⟨t, h, ht⟩ := answers_next (p := fun t => decide (t.prgMap[3] = 3))
    (o := step (withCall initializedState (.host .powerUp))) (by decide)
  refine ⟨t, h, ?_⟩
  rw [of_decide_eq_true ht]
  decide

theorem test_witness_ConfigurationIsFixed :
    (∃ t, step (withCall batteryState (.cpuw 0x8000 6)) = .next t) ∧ batteryState.phase ≠ .uninit :=
  ⟨completes (by decide), by decide⟩

/-- The last byte of a battery-backed part changes by each of its three writers. -/
theorem test_witness_BatteryBytesChangeOnlyByStores :
    (battery batteryState.cfg.descriptor = some (.prgRAM, 4) ∧ 3 < 4 ∧
      ∃ t, step (withCall batteryState (.host (.setNVRAM [1, 2, 3, 4]))) = .next t ∧
        t.byteAt .prgRAM 3 ≠ some 0) ∧
    (∃ t, step (withAccess batteryState (.cpuStore 0x6003 4)) = .next t ∧
      t.byteAt .prgRAM 3 ≠ some 0) ∧
    (battery graphicsRamState.cfg.descriptor = some (.chrRAM, 2) ∧ 1 < 2 ∧
      ∃ t, step (withAccess graphicsRamState (.ppuStore 0x0001 4)) = .next t ∧
        t.byteAt .chrRAM 1 ≠ some 0) ∧
    batteryState.byteAt .prgRAM 3 = some 0 ∧ graphicsRamState.byteAt .chrRAM 1 = some 0 := by
  refine ⟨⟨by decide, by decide, ?_⟩, ?_, ⟨by decide, by decide, ?_⟩, by decide, by decide⟩
  · obtain ⟨t, h, ht⟩ := answers_next (p := fun t => decide (t.byteAt .prgRAM 3 = some 4))
      (o := step (withCall batteryState (.host (.setNVRAM [1, 2, 3, 4])))) (by decide)
    exact ⟨t, h, by rw [of_decide_eq_true ht]; decide⟩
  · obtain ⟨t, h, ht⟩ := answers_next (p := fun t => decide (t.byteAt .prgRAM 3 = some 4))
      (o := step (withAccess batteryState (.cpuStore 0x6003 4))) (by decide)
    exact ⟨t, h, by rw [of_decide_eq_true ht]; decide⟩
  · obtain ⟨t, h, ht⟩ := answers_next (p := fun t => decide (t.byteAt .chrRAM 1 = some 4))
      (o := step (withAccess graphicsRamState (.ppuStore 0x0001 4))) (by decide)
    exact ⟨t, h, by rw [of_decide_eq_true ht]; decide⟩

theorem test_witness_ReadsHaveNoSideEffect :
    (∃ t, runAccess (.cpuRead 0xFFFC) plainState = .next t) ∧
    ∃ t, runAccess (.ppuRead 0x2000) plainState = .next t :=
  ⟨completes (by decide), completes (by decide)⟩

end Sys2Proof.Tests
end

section
/-! The shape of every step: a call is taken off the driver's list, and what it does to the state is one
of the few changes of `Change`. What every step keeps is proved once for each change. -/

namespace Sys2Proof.Machine

/-! ## Taking a step apart -/

theorem step_next {s t : State} :
    step s = .next t ↔
      ∃ e rest, s.pending = e :: rest ∧ runEvent e (s.withPending rest) = .next t := by
  cases hp : s.pending with
  | nil => simp [step_of_idle hp]
  | cons e rest => simp [step_of_pending hp]

theorem runTransaction_of_decode {x : Transaction} {s : State} {i : Instr}
    (h : decode s.command x = .ok i) : runTransaction x s = exec i s := by
  unfold runTransaction
  rw [h]

theorem runTransaction_next {x : Transaction} {s t : State} :
    runTransaction x s = .next t ↔ ∃ i, decode s.command x = .ok i ∧ exec i s = .next t := by
  cases hd : decode s.command x with
  | ok i => simp [runTransaction_of_decode hd]
  | error e => simp [runTransaction, hd]

/-! ## Taking a window access apart -/

theorem ite_refused_next {c : Prop} [Decidable c] {r : Refusal} {o : Outcome} {t : State} :
    (if c then .refused r else o) = (.next t : Outcome) ↔ ¬c ∧ o = .next t := by
  by_cases hc : c <;> simp [hc]

theorem runAccess_cpuRead_next {a : Nat} {s t : State} :
    runAccess (.cpuRead a) s = .next t ↔
      s.phase ≠ .uninit ∧ a ≤ 0xFFFF ∧ cpuRead a s = .next t := by
  simp only [runAccess, whenInitialized_next, ite_refused_next, Nat.not_lt]

theorem runAccess_cpuStore_next {a v : Nat} {s t : State} :
    runAccess (.cpuStore a v) s = .next t ↔
      s.phase ≠ .uninit ∧ a ≤ 0xFFFF ∧ v ≤ 0xFF ∧ cpuStore a (BitVec.ofNat 8 v) s = .next t := by
  simp only [runAccess, whenInitialized_next, ite_refused_next, Nat.not_lt]

theorem runAccess_ppuRead_next {p : Nat} {s t : State} :
    runAccess (.ppuRead p) s = .next t ↔
      s.phase ≠ .uninit ∧ p ≤ 0xFFFF ∧ ppuRead p s = .next t := by
  simp only [runAccess, whenInitialized_next, ite_refused_next, Nat.not_lt]

theorem runAccess_ppuStore_next {p v : Nat} {s t : State} :
    runAccess (.ppuStore p v) s = .next t ↔
      s.phase ≠ .uninit ∧ p ≤ 0xFFFF ∧ v ≤ 0xFF ∧ ppuStore p (BitVec.ofNat 8 v) s = .next t := by
  simp only [runAccess, whenInitialized_next, ite_refused_next, Nat.not_lt]

theorem memRead_answers {sp : Space} {a : Nat} {s t : State} (h : memRead sp a s = .next t) :
    ∃ r, t = s.answer r := by
  obtain ⟨v, -, rfl⟩ := memRead_next.1 h
  exact ⟨_, rfl⟩

/-- A CPU read only answers (R52, R53). -/
theorem cpuRead_answers {a : Nat} {s t : State} (h : cpuRead a s = .next t) :
    ∃ r, t = s.answer r := by
  unfold cpuRead at h
  split at h
  · exact memRead_answers h
  · split at h
    · split at h
      · exact memRead_answers h
      · exact ⟨_, (Host.Outcome.next.inj h).symm⟩
    · exact ⟨_, (Host.Outcome.next.inj h).symm⟩

/-- A PPU read only answers (R54, R55). -/
theorem ppuRead_answers {p : Nat} {s t : State} (h : ppuRead p s = .next t) :
    ∃ r, t = s.answer r := by
  unfold ppuRead at h
  split at h
  · exact memRead_answers h
  · split at h <;> exact ⟨_, (Host.Outcome.next.inj h).symm⟩

/-- A CPU store reaches only program RAM, through its window (R53). -/
theorem cpuStore_cases {a : Nat} {v : Byte} {s t : State} (h : cpuStore a v s = .next t) :
    t = s ∨ ∃ u, 0x6000 ≤ a ∧ a < 0x8000 ∧ s.prgRamMap = some u ∧
      memWrite .prgRAM (prgRamIndex u a) v s = .next t := by
  unfold cpuStore at h
  split at h
  next ha =>
    split at h
    next u hu => exact .inr ⟨u, ha.1, ha.2, hu, h⟩
    next => exact .inl (Host.Outcome.next.inj h).symm
  next => exact .inl (Host.Outcome.next.inj h).symm

/-- A PPU store reaches only graphics RAM, through its window; a nametable store answers where it goes
(R54, R55). -/
theorem ppuStore_cases {p : Nat} {v : Byte} {s t : State} (h : ppuStore p v s = .next t) :
    t = s ∨ (∃ r, t = s.answer r) ∨
      (ppuWindow p < 0x2000 ∧ chrSpace s.cfg.descriptor = .chrRAM ∧
        memWrite .chrRAM (chrIndex s p) v s = .next t) := by
  unfold ppuStore at h
  split at h
  next hp =>
    split at h
    next hsp => exact .inr (.inr ⟨hp, hsp, h⟩)
    next => exact .inl (Host.Outcome.next.inj h).symm
  next =>
    split at h
    · exact .inr (.inl ⟨_, (Host.Outcome.next.inj h).symm⟩)
    · exact .inl (Host.Outcome.next.inj h).symm

/-! ## The changes -/

/-- Everything a call that answers can do to the state `s`, apart from the driver's list. -/
inductive Change (s : State) : State → Prop
  | same : Change s s
  /-- New values in the command and in the scanline counter's registers. -/
  | registers (command irqLatch irqCounter : Byte) (irqReloadPending irqEnabled : Bool)
      (irqEdgeFilterDelay : BitVec 3) (irqOut : Bool) :
      Change s { s with
        command := command, irqLatch := irqLatch, irqCounter := irqCounter,
        irqReloadPending := irqReloadPending, irqEnabled := irqEnabled,
        irqEdgeFilterDelay := irqEdgeFilterDelay, irqOut := irqOut }
  /-- One program unit below the top one (R140). -/
  | prgUnit (w : Nat) (b : Int) (hw : w < 3) : Change s (prgRequest 1 w b s)
  /-- Two program units below the top one (R139). -/
  | prgUnits (w w' : Nat) (b b' : Int) (hw : w < 3) (hw' : w' < 3) :
      Change s (prgRequest 1 w' b' (prgRequest 1 w b s))
  /-- Graphics units (R133 to R138). -/
  | chrUnits (k w : Nat) (b : Int) : Change s (chrRequest k w b s)
  | areas (t : Vector Area 4) : Change s (setAreas t s)
  | answer (r : Reply) : Change s (s.answer r)
  /-- A RAM that is there gets other bytes, as many and as canonical as before. -/
  | ram (sp : Space) (m m' : Memory) (hm : s.storage sp = some m) (hsize : m'.size = m.size)
      (hwf : m.wf = true → m'.wf = true) : Change s (s.withRAM sp m')
  | initialise (d : Descriptor) (hphase : s.phase = .uninit) (hd : d.wellFormed = true) :
      Change s (initialized d s)
  | powerUp (hphase : s.phase ≠ .uninit) : Change s (poweredUp s)

theorem Change.of_whenRunning {s t u : State} (h : whenRunning s t = .next u) (hc : Change s t) :
    Change s u :=
  (whenRunning_next.1 h).2 ▸ hc

theorem Change.of_next {s t u : State} (h : (.next t : Outcome) = .next u) (hc : Change s t) :
    Change s u :=
  Host.Outcome.next.inj h ▸ hc

theorem Change.of_answers {s t : State} (h : ∃ r, t = s.answer r) : Change s t := by
  obtain ⟨r, rfl⟩ := h
  exact .answer r

theorem Change.of_memWrite {sp : Space} {a : Nat} {v : Byte} {s t : State}
    (h : memWrite sp a v s = .next t) : Change s t := by
  obtain ⟨m, hm, -, rfl⟩ := memWrite_next.1 h
  exact .ram sp m _ hm (m.write_size a v) fun hwf => Memory.write_wf hwf a v

/-! ## Every call makes one of the changes -/

theorem prgTargetUnit_lt (command : Byte) : prgTargetUnit command < 3 := by
  unfold prgTargetUnit prgMode
  cases command.getLsbD 6 <;> decide

theorem prgFixedUnit_lt (command : Byte) : prgFixedUnit command < 3 := by
  unfold prgFixedUnit prgMode
  cases command.getLsbD 6 <;> decide

theorem lowTick_change (s : State) : Change s (lowTick s) := by
  unfold lowTick
  split
  · exact .same
  · exact .registers ..

theorem highTick_change (s : State) : Change s (highTick s) := by
  unfold highTick
  split
  · rw [counterUpdate_eq]
    exact .registers ..
  · exact .registers ..

theorem mirrorWrite_change (v : Byte) (s : State) : Change s (mirrorWrite v s) := by
  unfold mirrorWrite
  split
  · exact .same
  · split <;> exact .areas _

theorem execInitialise_change {d : Descriptor} {s t : State} (h : execInitialise d s = .next t) :
    Change s t := by
  unfold execInitialise at h
  split at h
  next hphase =>
    split at h
    next hd => exact .of_next h (.initialise d hphase hd)
    next => cases h
  next => cases h

theorem batteryBytes_answers {sp : Space} {n : Nat} {s t : State}
    (h : batteryBytes s sp n = .next t) : ∃ r, t = s.answer r := by
  unfold batteryBytes at h
  split at h
  · cases h
  · split at h
    · exact ⟨_, (Host.Outcome.next.inj h).symm⟩
    · cases h

theorem copyToBattery_next {sp : Space} {n : Nat} {data : List Byte} {s t : State} :
    copyToBattery s sp n data = .next t ↔
      ∃ m, s.storage sp = some m ∧ n ≤ m.size ∧
        t = s.withRAM sp (m.writeBytes 0 (data.take n)) := by
  unfold copyToBattery
  cases s.storage sp with
  | none => simp
  | some m => by_cases hn : n ≤ m.size <;> simp [hn, eq_comm]

theorem execGetNVRAM_answers {s t : State} (h : execGetNVRAM s = .next t) :
    ∃ r, t = s.answer r := by
  obtain ⟨-, h⟩ := whenInitialized_next.1 h
  split at h
  · exact ⟨_, (Host.Outcome.next.inj h).symm⟩
  · exact batteryBytes_answers h

theorem execSetNVRAM_change {data : List Byte} {s t : State} (h : execSetNVRAM data s = .next t) :
    Change s t := by
  obtain ⟨-, h⟩ := whenInitialized_next.1 h
  split at h
  next => exact .of_next h .same
  next sp n _ =>
    obtain ⟨m, hm, -, rfl⟩ := copyToBattery_next.1 h
    exact .ram sp m _ hm (m.writeBytes_size 0 _) fun hwf => Memory.writeBytes_wf hwf 0 _

theorem exec_change {i : Instr} {s t : State} (h : exec i s = .next t) : Change s t := by
  cases i with
  | bankSelect a v => exact .of_whenRunning h (.registers ..)
  | bankDataSf0 a v => exact .of_whenRunning h (.chrUnits ..)
  | bankDataSf1 a v => exact .of_whenRunning h (.chrUnits ..)
  | bankDataSf2 a v => exact .of_whenRunning h (.chrUnits ..)
  | bankDataSf3 a v => exact .of_whenRunning h (.chrUnits ..)
  | bankDataSf4 a v => exact .of_whenRunning h (.chrUnits ..)
  | bankDataSf5 a v => exact .of_whenRunning h (.chrUnits ..)
  | bankDataSf6 a v =>
    exact .of_whenRunning h (.prgUnits _ _ _ _ (prgTargetUnit_lt _) (prgFixedUnit_lt _))
  | bankDataSf7 a v => exact .of_whenRunning h (.prgUnit 1 _ (by decide))
  | mirror a v => exact .of_whenRunning h (mirrorWrite_change v s)
  | prgramProtect a v => exact .of_whenRunning h .same
  | irqLatch a v => exact .of_whenRunning h (.registers ..)
  | irqReload a v => exact .of_whenRunning h (.registers ..)
  | irqDisable a v => exact .of_whenRunning h (.registers ..)
  | irqEnable a v => exact .of_whenRunning h (.registers ..)
  | ignored a v => exact .of_whenRunning h .same
  | tickLow p => exact .of_whenRunning h (lowTick_change s)
  | tickHigh p => exact .of_whenRunning h (highTick_change s)
  | initialise d => exact execInitialise_change h
  | inject => exact .of_next h .same
  | powerUp =>
    obtain ⟨hphase, h⟩ := whenInitialized_next.1 h
    exact .of_next h (.powerUp hphase)
  | getNVRAMSize =>
    obtain ⟨-, h⟩ := whenInitialized_next.1 h
    exact .of_next h (.answer _)
  | getNVRAM => exact .of_answers (execGetNVRAM_answers h)
  | setNVRAM data => exact execSetNVRAM_change h
  | setMirroringHorizontal => exact .of_next h (.areas _)
  | setMirroringVertical => exact .of_next h (.areas _)
  | setMirroringFourScreen => exact .of_next h (.areas _)
  | setMirroringSingleScreen area => exact .of_next h (.areas _)
  | setMirroringAreas a0 a1 a2 a3 => exact .of_next h (.areas _)

theorem runAccess_change {x : Access} {s t : State} (h : runAccess x s = .next t) : Change s t := by
  cases x with
  | cpuRead a =>
    obtain ⟨-, -, h⟩ := runAccess_cpuRead_next.1 h
    exact .of_answers (cpuRead_answers h)
  | cpuStore a v =>
    obtain ⟨-, -, -, h⟩ := runAccess_cpuStore_next.1 h
    rcases cpuStore_cases h with rfl | ⟨u, -, -, -, h⟩
    · exact .same
    · exact .of_memWrite h
  | ppuRead p =>
    obtain ⟨-, -, h⟩ := runAccess_ppuRead_next.1 h
    exact .of_answers (ppuRead_answers h)
  | ppuStore p v =>
    obtain ⟨-, -, -, h⟩ := runAccess_ppuStore_next.1 h
    rcases ppuStore_cases h with rfl | h | ⟨-, -, h⟩
    · exact .same
    · exact .of_answers h
    · exact .of_memWrite h

theorem runEvent_change {e : Event} {s t : State} (h : runEvent e s = .next t) : Change s t := by
  cases e with
  | transaction x =>
    obtain ⟨i, -, h⟩ := runTransaction_next.1 h
    exact exec_change h
  | access x => exact runAccess_change h

/-- A step takes the oldest call off the list and makes one of the changes. -/
theorem step_change {s t : State} (h : step s = .next t) :
    ∃ e rest, s.pending = e :: rest ∧ Change (s.withPending rest) t := by
  obtain ⟨e, rest, hp, h⟩ := step_next.1 h
  exact ⟨e, rest, hp, runEvent_change h⟩

/-! ## What every change leaves alone -/

theorem Change.pending_eq {s t : State} (h : Change s t) : t.pending = s.pending := by
  cases h with
  | ram sp m m' => exact withRAM_pending s sp m'
  | powerUp => exact poweredUp_pending s
  | _ => rfl

/-- Only `initialise` changes the configuration, and there only the descriptor (R200). -/
theorem Change.cfg_cases {s t : State} (h : Change s t) :
    t.cfg = s.cfg ∨ s.phase = .uninit ∧ ∃ d, t.cfg = { s.cfg with descriptor := d } := by
  cases h with
  | ram sp m m' => exact .inl (withRAM_cfg s sp m')
  | initialise d hphase => exact .inr ⟨hphase, d, rfl⟩
  | powerUp => exact .inl (poweredUp_cfg s)
  | _ => exact .inl rfl

/-- Settles O8: the call is taken off the list by `step_of_pending`, then decoded and executed. -/
theorem stepRunsDecodedInstruction : Obligations.StepRunsDecodedInstruction := by
  intro s rest
  refine ⟨fun x i hp hd => ?_, fun x hp => step_of_pending hp⟩
  rw [step_of_pending hp]
  exact runTransaction_of_decode (s := s.withPending rest) hd

/-- Settles O11: the list loses its head before the call runs, and no change touches it. -/
theorem stepConsumesOneCall : Obligations.StepConsumesOneCall := by
  intro s t h
  obtain ⟨e, rest, hp, hc⟩ := step_change h
  exact ⟨e, by rw [hp, hc.pending_eq, withPending_pending]⟩

/-- Settles O57: only `initialise` writes the configuration, and the ROM bytes are the descriptor's. -/
theorem configurationIsFixed : Obligations.ConfigurationIsFixed := by
  intro s t h
  obtain ⟨e, rest, -, hc⟩ := step_change h
  rcases hc.cfg_cases with hcfg | ⟨hphase, d, hcfg⟩
  · rw [withPending_cfg] at hcfg
    refine ⟨by rw [hcfg], by rw [hcfg], fun _ => ⟨by rw [hcfg], fun a => ⟨?_, ?_⟩⟩⟩
    · exact byteAt_congr (by simp only [State.storage, hcfg]) a
    · exact byteAt_congr (by simp only [State.storage, hcfg]) a
  · exact ⟨by rw [hcfg]; rfl, by rw [hcfg]; rfl, fun hne => absurd hphase hne⟩

end Sys2Proof.Machine
end

section
/-! The block's invariant, kept by each change and so by every step. -/

namespace Sys2Proof.Machine

/-! ## Bank tables -/

theorem wrap_neg_one (m : Nat) : wrap (-1) m = m := by
  have h : (-1 : Int) % ((m : Int) + 1) = m := by
    rw [← Int.add_emod_right, Int.emod_eq_of_lt] <;> omega
  unfold wrap
  rw [h]
  rfl

theorem tableFits_request {w size e : Nat} {t : Vector Nat w} (h : tableFits size e t) (k s : Nat)
    (b : Int) : tableFits size e (request k s b e size t) := by
  intro i
  rw [Fin.getElem_fin, request_get]
  split
  · exact wrap_le _ _
  · exact h i

theorem tableFits_drawTable {w : Nat} (size e : Nat) (t : Vector Nat w) :
    tableFits size e (drawTable size e t) := by
  intro i
  simp [drawTable, wrap_le]

/-- A one-unit request leaves every other unit alone. -/
theorem request_one_get_ne {w : Nat} {s u : Nat} (b : Int) (e size : Nat) (t : Vector Nat w)
    (hu : u < w) (h : s ≠ u) : (request 1 s b e size t)[u] = t[u] := by
  rw [request_get, if_neg (by omega)]

/-- The four-unit request of reset puts the last bank in the top unit (R261). -/
theorem request_reset_top (e size : Nat) (t : Vector Nat 4) :
    (request 4 0 (-1) e size t)[3] = maxUnit size e := by
  rw [request_get, if_pos (by omega)]
  exact wrap_neg_one _

theorem drawPrgRam_fits {size u : Nat} {p : Option Nat} (h : drawPrgRam size p = some u) :
    0 < size ∧ u ≤ maxUnit size prgExp := by
  unfold drawPrgRam at h
  split at h
  next hsize =>
    obtain ⟨q, -, rfl⟩ := Option.map_eq_some_iff.1 h
    exact ⟨hsize, wrap_le _ _⟩
  next => cases h

/-! ## RAM buffers -/

theorem ramFits_replace {size : Nat} {m m' : Memory} (h : ramFits size (some m))
    (hsize : m'.size = m.size) (hwf : m.wf = true → m'.wf = true) : ramFits size (some m') := by
  obtain ⟨hpos, hm, hw⟩ := h
  exact ⟨hpos, hsize.trans hm, hwf hw⟩

theorem ramFits_zeroFrom {size : Nat} {o : Option Memory} (h : ramFits size o) (n : Nat) :
    ramFits size (o.map fun m => m.zeroFrom n) := by
  cases o with
  | none => exact h
  | some m => exact ramFits_replace h (m.zeroFrom_size n) fun hwf => Memory.zeroFrom_wf hwf n

theorem ramFits_allocate (size : Nat) (l : List Host.Cell) : ramFits size (allocate size l) := by
  unfold allocate
  split
  next hsize => exact ⟨hsize, Memory.ofDraw_size size l, Memory.ofDraw_wf size l⟩
  next hsize => exact Nat.eq_zero_of_not_pos hsize

/-! ## The changes keep the invariant -/

theorem BlockInv.after_prgRequest_one {s : State} (h : BlockInv s) {w : Nat} (b : Int) (hw : w < 3) :
    BlockInv (prgRequest 1 w b s) :=
  { h with
    prgMap := tableFits_request h.prgMap 1 w b
    topUnit := fun hrun => (request_one_get_ne b _ _ _ (by omega) (by omega)).trans (h.topUnit hrun) }

theorem BlockInv.after_chrRequest {s : State} (h : BlockInv s) (k w : Nat) (b : Int) :
    BlockInv (chrRequest k w b s) :=
  { h with chrMap := tableFits_request h.chrMap k w b }

theorem BlockInv.after_withRAM {s : State} (h : BlockInv s) {sp : Space} {m m' : Memory}
    (hm : s.storage sp = some m) (hsize : m'.size = m.size) (hwf : m.wf = true → m'.wf = true) :
    BlockInv (s.withRAM sp m') := by
  cases sp with
  | prgROM => exact h
  | chrROM => exact h
  | prgRAM =>
    have hram : s.prgRAM = some m := hm
    exact { h with prgRAM := ramFits_replace (hram ▸ h.prgRAM) hsize hwf }
  | chrRAM =>
    have hram : s.chrRAM = some m := hm
    exact { h with chrRAM := ramFits_replace (hram ▸ h.chrRAM) hsize hwf }

/-- The drawn tables are masked and the drawn RAMs have their sizes, so the invariant starts to hold at
`initialise` (R200). -/
theorem BlockInv.of_initialise {d : Descriptor} (hd : d.wellFormed = true) (s : State) :
    BlockInv (initialized d s) where
  admitted := hd
  prgMap := tableFits_drawTable _ _ _
  prgRamMap := fun _ hu => drawPrgRam_fits hu
  chrMap := tableFits_drawTable _ _ _
  prgRAM := ramFits_allocate _ _
  chrRAM := ramFits_allocate _ _
  topUnit := fun hrun => by cases hrun

theorem BlockInv.after_poweredUp {s : State} (h : BlockInv s) : BlockInv (poweredUp s) where
  admitted := by rw [poweredUp_cfg]; exact h.admitted
  prgMap := by rw [poweredUp_cfg, poweredUp_prgMap]; exact tableFits_request h.prgMap 4 0 (-1)
  prgRamMap := fun u hu => by
    rw [poweredUp_prgRamMap, prgRamUnit_eq] at hu
    rw [poweredUp_cfg]
    split at hu
    next hsize =>
      obtain rfl := Option.some.inj hu
      exact ⟨hsize, wrap_le _ _⟩
    next => cases hu
  chrMap := by rw [poweredUp_cfg, poweredUp_chrMap]; exact tableFits_request h.chrMap 8 0 0
  prgRAM := by rw [poweredUp_cfg, poweredUp_prgRAM]; exact ramFits_zeroFrom h.prgRAM _
  chrRAM := by rw [poweredUp_cfg, poweredUp_chrRAM]; exact ramFits_zeroFrom h.chrRAM _
  topUnit := fun _ => by
    rw [poweredUp_cfg]
    exact request_reset_top _ _ _

theorem Change.keeps_inv {s t : State} (hc : Change s t) (h : Inv s) : Inv t := by
  cases hc with
  | same => exact h
  | registers => exact fun hp => { h hp with }
  | prgUnit w b hw => exact fun hp => (h hp).after_prgRequest_one b hw
  | prgUnits w w' b b' hw hw' =>
    exact fun hp => ((h hp).after_prgRequest_one b hw).after_prgRequest_one b' hw'
  | chrUnits k w b => exact fun hp => (h hp).after_chrRequest k w b
  | areas v => exact fun hp => { h hp with }
  | answer r => exact fun hp => { h hp with }
  | ram sp m m' hm hsize hwf =>
    exact fun hp => (h (withRAM_phase s sp m' ▸ hp)).after_withRAM hm hsize hwf
  | initialise d _ hd => exact fun _ => BlockInv.of_initialise hd s
  | powerUp hphase => exact fun _ => (h hphase).after_poweredUp

theorem Inv.after_withPending {s : State} (h : Inv s) (l : List Event) : Inv (s.withPending l) :=
  fun hp => { h hp with }

/-- Settles O49: the list is no part of the invariant, and every change keeps it. -/
theorem stepKeepsBlockInvariant : Obligations.StepKeepsBlockInvariant := by
  intro s t h hstep
  obtain ⟨e, rest, -, hc⟩ := step_change hstep
  exact hc.keeps_inv (h.after_withPending rest)

end Sys2Proof.Machine
end

section
/-! The wrap as a bitwise and (00_scope.md R8, 40_bank_window.md R111). -/

namespace Sys2Proof.Machine

/-- Reducing a bank modulo a power of two that the mask's units divide does not change its unit. -/
theorem wrap_emod_two_pow (d : Int) {k w : Nat} (h : k ≤ w) :
    wrap (d % 2 ^ w) (2 ^ k - 1) = wrap d (2 ^ k - 1) := by
  have hunits : (((2 ^ k - 1 : Nat) : Int) + 1) = 2 ^ k := by
    rw [← Int.natCast_succ, Nat.succ_eq_add_one, Nat.sub_add_cancel (Nat.two_pow_pos k)]
    exact Nat.cast_pow 2 k
  unfold wrap
  rw [hunits, Int.emod_emod_of_dvd _ (pow_dvd_pow 2 h)]

theorem toNat_ofNat_mask {k w : Nat} (h : k ≤ w) :
    (BitVec.ofNat w (2 ^ k - 1)).toNat = 2 ^ k - 1 := by
  have hpos := Nat.two_pow_pos k
  have hle : 2 ^ k ≤ 2 ^ w := Nat.pow_le_pow_right (by decide) h
  rw [BitVec.toNat_ofNat, Nat.mod_eq_of_lt (by omega)]

/-- The two's-complement bits of `d` as a number are its remainder modulo `2^w`. -/
theorem natCast_toNat_ofInt (w : Nat) (d : Int) : ((BitVec.ofInt w d).toNat : Int) = d % 2 ^ w := by
  rw [BitVec.toNat_ofInt, Nat.cast_pow, Int.toNat_of_nonneg (Int.emod_nonneg _ (by positivity))]
  rfl

/-- Settles O13: `w` bits keep the remainder modulo `2^k`, and there the and is the wrap. -/
theorem wrapIsTwosComplementAnd : Obligations.WrapIsTwosComplementAnd := by
  intro w k d h
  calc wrap d (2 ^ k - 1)
      = wrap (d % 2 ^ w) (2 ^ k - 1) := (wrap_emod_two_pow d h).symm
    _ = wrap ((BitVec.ofInt w d).toNat : Int) (2 ^ k - 1) := by rw [natCast_toNat_ofInt]
    _ = (BitVec.ofInt w d).toNat &&& (2 ^ k - 1) := wrap_natCast_eq_and _ _
    _ = (BitVec.ofInt w d &&& BitVec.ofNat w (2 ^ k - 1)).toNat := by
      rw [BitVec.toNat_and, toNat_ofNat_mask h]

end Sys2Proof.Machine
end

section
/-! The admitted descriptors, item by item (00_scope.md R6). -/

namespace Sys2Proof.Machine

theorem prgROMSizeOk_iff (d : Descriptor) :
    d.prgROMSizeOk = true ↔ (∃ k, d.prgROMSize = 2 ^ k) ∧ 8192 ≤ d.prgROMSize := by
  simp [Descriptor.prgROMSizeOk, isPow2_iff]

theorem chrPhysOk_iff (d : Descriptor) :
    d.chrPhysOk = true ↔ (∃ k, d.chrPhys = 2 ^ k) ∧ 1024 ≤ d.chrPhys := by
  simp [Descriptor.chrPhysOk, isPow2_iff]

theorem ramSizesOk_iff (d : Descriptor) :
    d.ramSizesOk = true ↔
      (d.prgRAMSize = 0 ∨ (∃ k, d.prgRAMSize = 2 ^ k) ∧ 8192 ≤ d.prgRAMSize) ∧
        (d.chrRAMSize = 0 ∨ (∃ k, d.chrRAMSize = 2 ^ k) ∧ 1024 ≤ d.chrRAMSize) := by
  simp [Descriptor.ramSizesOk, isPow2_iff]

theorem batteriesFit_iff (d : Descriptor) :
    d.batteriesFit = true ↔
      d.prgRAMSizeBattery ≤ d.prgRAMSize ∧ d.chrRAMSizeBattery ≤ d.chrRAMSize := by
  simp [Descriptor.batteriesFit]

theorem oneBattery_iff (d : Descriptor) :
    d.oneBattery = true ↔ d.prgRAMSizeBattery = 0 ∨ d.chrRAMSizeBattery = 0 := by
  simp [Descriptor.oneBattery]

theorem romLengthsOk_iff (d : Descriptor) :
    d.romLengthsOk = true ↔ d.prgROM.size = d.prgROMSize ∧ d.chrROM.size = d.chrROMSize := by
  simp [Descriptor.romLengthsOk]

/-- Settles O36: the check is the conjunction of the six items, each by its lemma; the written-out
`CHR_PHYS` is `Descriptor.chrPhys` by definition. -/
theorem admittedDescriptors : Obligations.AdmittedDescriptors := by
  intro d hroms
  simp only [Descriptor.wellFormed, hroms, Bool.and_true, Bool.and_eq_true, prgROMSizeOk_iff,
    chrPhysOk_iff, ramSizesOk_iff, batteriesFit_iff, oneBattery_iff, romLengthsOk_iff, and_assoc]
  rfl

end Sys2Proof.Machine
end

section
/-! What a call that decodes looks like: encoding the instruction again gives the call. -/

namespace Sys2Proof

theorem encode_decodeBankData (c : Byte) (a : Addr) (v : Byte) :
    encode (decodeBankData c a v) = encodeWrite a v := by
  unfold decodeBankData
  split_ifs <;> rfl

theorem encode_decodeWrite (c : Byte) (a : Addr) (v : Byte) :
    encode (decodeWrite c a v) = encodeWrite a v := by
  unfold decodeWrite
  cases slotOf a with
  | bankData => exact encode_decodeBankData c a v
  | _ => rfl

theorem encode_decodeTick (p : Addr) : encode (decodeTick p) = .pput p.toNat := by
  unfold decodeTick
  split <;> rfl

theorem areaOf_ok {a : Nat} {x : Area} (h : areaOf a = .ok x) : x.val = a := by
  unfold areaOf at h
  split at h
  · cases h
    rfl
  · cases h

theorem encode_of_decodeHost {call : HostCall} {i : Instr} (h : decodeHost call = .ok i) :
    encode i = .host call := by
  cases call with
  | setMirroringSingleScreen a =>
    simp only [decodeHost] at h
    split at h
    next x hx =>
      cases h
      rw [encode, areaOf_ok hx]
    next => cases h
  | setMirroringAreas a0 a1 a2 a3 =>
    simp only [decodeHost] at h
    split at h
    next x0 x1 x2 x3 h0 h1 h2 h3 =>
      cases h
      rw [encode, areaOf_ok h0, areaOf_ok h1, areaOf_ok h2, areaOf_ok h3]
    next => cases h
  | _ =>
    cases h
    rfl

/-- No operand is truncated, so the instruction still says which call it came from (R91). -/
theorem encode_of_decode {c : Byte} {x : Transaction} {i : Instr} (h : decode c x = .ok i) :
    encode i = x := by
  cases x with
  | cpuw a v =>
    simp only [decode] at h
    split at h
    · cases h
    · split at h
      · cases h
      · cases h
        rw [encode_decodeWrite, encodeWrite, BitVec.toNat_ofNat, BitVec.toNat_ofNat,
          Nat.mod_eq_of_lt (by omega), Nat.mod_eq_of_lt (by omega)]
  | pput p =>
    simp only [decode] at h
    split at h
    · cases h
    · cases h
      rw [encode_decodeTick, BitVec.toNat_ofNat, Nat.mod_eq_of_lt (by omega)]
  | host call => exact encode_of_decodeHost h

end Sys2Proof
end

section
/-! The frame of every instruction: which fields each one may write (10_state.md R20), and so what
happens to the storage and to the top program unit. -/

namespace Sys2Proof.Machine

/-! ## Which instructions need the phase Running -/

theorem exec_of_isBusTransaction {i : Instr} (h : isBusTransaction i = true) (s : State) :
    ∃ t, exec i s = whenRunning s t := by
  cases i with
  | initialise | inject | powerUp | getNVRAMSize | getNVRAM | setNVRAM | setMirroringHorizontal
  | setMirroringVertical | setMirroringFourScreen | setMirroringSingleScreen
  | setMirroringAreas => cases h
  | _ => exact ⟨_, rfl⟩

/-- Settles O24: every write and every tick completes through `whenRunning`. -/
theorem busTransactionsNeedRunning : Obligations.BusTransactionsNeedRunning := by
  intro s i hbus hphase
  obtain ⟨t, ht⟩ := exec_of_isBusTransaction hbus s
  rw [ht, whenRunning_refused hphase]

/-! ## The fields an operation writes -/

theorem execInitialise_next {d : Descriptor} {s t : State} :
    execInitialise d s = .next t ↔
      s.phase = .uninit ∧ d.wellFormed = true ∧ t = initialized d s := by
  unfold execInitialise
  by_cases hphase : s.phase = .uninit <;> by_cases hd : d.wellFormed = true <;>
    simp [hphase, hd, eq_comm]

theorem lowTick_writes (s : State) : ∃ d, lowTick s = { s with irqEdgeFilterDelay := d } := by
  unfold lowTick
  split <;> exact ⟨_, rfl⟩

theorem highTick_writes (s : State) :
    ∃ c r d o, highTick s = { s with
      irqCounter := c, irqReloadPending := r, irqEdgeFilterDelay := d, irqOut := o } := by
  unfold highTick
  split
  · rw [counterUpdate_eq]
    exact ⟨_, _, _, _, rfl⟩
  · exact ⟨_, _, _, _, rfl⟩

theorem mirrorWrite_writes (v : Byte) (s : State) : ∃ t, mirrorWrite v s = setAreas t s := by
  unfold mirrorWrite
  split
  · exact ⟨s.ntMap, rfl⟩
  · split <;> exact ⟨_, rfl⟩

theorem withRAM_writes (s : State) (sp : Space) (m : Memory) :
    ∃ p c, s.withRAM sp m = { s with prgRAM := p, chrRAM := c } := by
  cases sp <;> exact ⟨_, _, rfl⟩

theorem execSetNVRAM_writes {data : List Byte} {s t : State} (h : execSetNVRAM data s = .next t) :
    ∃ p c, t = { s with prgRAM := p, chrRAM := c } := by
  obtain ⟨-, h⟩ := whenInitialized_next.1 h
  split at h
  next => exact ⟨_, _, (Host.Outcome.next.inj h).symm⟩
  next sp n _ =>
    obtain ⟨m, -, -, rfl⟩ := copyToBattery_next.1 h
    exact withRAM_writes s sp _

theorem memWrite_writes {sp : Space} {a : Nat} {v : Byte} {s t : State}
    (h : memWrite sp a v s = .next t) : ∃ p c, t = { s with prgRAM := p, chrRAM := c } := by
  obtain ⟨m, -, -, rfl⟩ := memWrite_next.1 h
  exact withRAM_writes s sp _

/-- A window access writes the two RAMs and the answer at most (20_memory.md R52 to R55). -/
theorem runAccess_writes {x : Access} {s t : State} (h : runAccess x s = .next t) :
    ∃ p c r, t = { s with prgRAM := p, chrRAM := c, reply := r } := by
  cases x with
  | cpuRead a =>
    obtain ⟨-, -, h⟩ := runAccess_cpuRead_next.1 h
    obtain ⟨r, rfl⟩ := cpuRead_answers h
    exact ⟨_, _, r, rfl⟩
  | cpuStore a v =>
    obtain ⟨-, -, -, h⟩ := runAccess_cpuStore_next.1 h
    obtain rfl | ⟨u, -, -, -, h⟩ := cpuStore_cases h
    · exact ⟨_, _, _, rfl⟩
    · obtain ⟨p, c, rfl⟩ := memWrite_writes h
      exact ⟨p, c, _, rfl⟩
  | ppuRead p =>
    obtain ⟨-, -, h⟩ := runAccess_ppuRead_next.1 h
    obtain ⟨r, rfl⟩ := ppuRead_answers h
    exact ⟨_, _, r, rfl⟩
  | ppuStore p v =>
    obtain ⟨-, -, -, h⟩ := runAccess_ppuStore_next.1 h
    obtain rfl | ⟨r, rfl⟩ | ⟨-, -, h⟩ := ppuStore_cases h
    · exact ⟨_, _, _, rfl⟩
    · exact ⟨_, _, r, rfl⟩
    · obtain ⟨p, c, rfl⟩ := memWrite_writes h
      exact ⟨p, c, _, rfl⟩

/-! ## Every instruction writes only its own fields -/

/-- The frame to start from: nothing changed. An instruction's frame replaces the clauses of the fields
it writes. -/
theorem ChangedByWriters.refl (i : Instr) (s : State) : ChangedByWriters i s s := by
  constructor
  case prgRamMap | phase | cfg | pending | draw => rfl
  all_goals exact fun hne => absurd rfl hne

theorem ChangedByWriters.of_whenRunning {i : Instr} {s t u : State}
    (h : whenRunning s t = .next u) (hc : ChangedByWriters i s t) : ChangedByWriters i s u :=
  (whenRunning_next.1 h).2 ▸ hc

theorem ChangedByWriters.of_next {i : Instr} {s t u : State} (h : (.next t : Outcome) = .next u)
    (hc : ChangedByWriters i s t) : ChangedByWriters i s u :=
  Host.Outcome.next.inj h ▸ hc

theorem ChangedByWriters.of_lowTick (p : Addr) (s : State) :
    ChangedByWriters (.tickLow p) s (lowTick s) := by
  obtain ⟨d, hd⟩ := lowTick_writes s
  rw [hd]
  exact { ChangedByWriters.refl _ s with irqEdgeFilterDelay := fun _ => .inr ⟨p, rfl⟩ }

theorem ChangedByWriters.of_highTick (p : Addr) (s : State) :
    ChangedByWriters (.tickHigh p) s (highTick s) := by
  obtain ⟨c, r, d, o, ht⟩ := highTick_writes s
  rw [ht]
  exact { ChangedByWriters.refl _ s with
    irqCounter := fun _ => ⟨p, rfl⟩
    irqReloadPending := fun _ => .inr ⟨p, rfl⟩
    irqEdgeFilterDelay := fun _ => .inl ⟨p, rfl⟩
    irqOut := fun _ => .inr ⟨p, rfl⟩ }

theorem ChangedByWriters.of_mirrorWrite (a : Addr) (v : Byte) (s : State) :
    ChangedByWriters (.mirror a v) s (mirrorWrite v s) := by
  obtain ⟨t, ht⟩ := mirrorWrite_writes v s
  rw [ht]
  exact { ChangedByWriters.refl _ s with ntMap := fun _ => .inl ⟨a, v, rfl⟩ }

/-- Every instruction but `initialise` and `powerUp`, in any phase, writes only the fields that R20 gives
it. -/
theorem exec_changedByWriters {i : Instr} {s t : State} (h : exec i s = .next t)
    (hinit : ∀ d, i ≠ .initialise d) (hpower : i ≠ .powerUp) : ChangedByWriters i s t := by
  have same := ChangedByWriters.refl i s
  cases i with
  | bankSelect a v => exact .of_whenRunning h { same with command := fun _ => ⟨a, v, rfl⟩ }
  | bankDataSf0 a v => exact .of_whenRunning h { same with chrMap := fun _ => ⟨a, v, by simp⟩ }
  | bankDataSf1 a v => exact .of_whenRunning h { same with chrMap := fun _ => ⟨a, v, by simp⟩ }
  | bankDataSf2 a v => exact .of_whenRunning h { same with chrMap := fun _ => ⟨a, v, by simp⟩ }
  | bankDataSf3 a v => exact .of_whenRunning h { same with chrMap := fun _ => ⟨a, v, by simp⟩ }
  | bankDataSf4 a v => exact .of_whenRunning h { same with chrMap := fun _ => ⟨a, v, by simp⟩ }
  | bankDataSf5 a v => exact .of_whenRunning h { same with chrMap := fun _ => ⟨a, v, by simp⟩ }
  | bankDataSf6 a v => exact .of_whenRunning h { same with prgMap := fun _ => .inl ⟨a, v, rfl⟩ }
  | bankDataSf7 a v => exact .of_whenRunning h { same with prgMap := fun _ => .inr ⟨a, v, rfl⟩ }
  | mirror a v => exact .of_whenRunning h (.of_mirrorWrite a v s)
  | prgramProtect a v => exact .of_whenRunning h same
  | irqLatch a v => exact .of_whenRunning h { same with irqLatch := fun _ => ⟨a, v, rfl⟩ }
  | irqReload a v =>
    exact .of_whenRunning h { same with irqReloadPending := fun _ => .inl ⟨a, v, rfl⟩ }
  | irqDisable a v =>
    exact .of_whenRunning h { same with
      irqEnabled := fun _ => .inl ⟨a, v, rfl⟩
      irqOut := fun _ => .inl ⟨a, v, rfl⟩ }
  | irqEnable a v => exact .of_whenRunning h { same with irqEnabled := fun _ => .inr ⟨a, v, rfl⟩ }
  | ignored a v => exact .of_whenRunning h same
  | tickLow p => exact .of_whenRunning h (.of_lowTick p s)
  | tickHigh p => exact .of_whenRunning h (.of_highTick p s)
  | initialise d => exact absurd rfl (hinit d)
  | inject => exact .of_next h same
  | powerUp => exact absurd rfl hpower
  | getNVRAMSize =>
    obtain ⟨-, h⟩ := whenInitialized_next.1 h
    exact .of_next h { same with reply := fun _ => .inl rfl }
  | getNVRAM =>
    obtain ⟨r, rfl⟩ := execGetNVRAM_answers h
    exact { same with reply := fun _ => .inr rfl }
  | setNVRAM data =>
    obtain ⟨p, c, rfl⟩ := execSetNVRAM_writes h
    exact { same with prgRAM := fun _ => ⟨data, rfl⟩, chrRAM := fun _ => ⟨data, rfl⟩ }
  | setMirroringHorizontal => exact .of_next h { same with ntMap := fun _ => by simp }
  | setMirroringVertical => exact .of_next h { same with ntMap := fun _ => by simp }
  | setMirroringFourScreen => exact .of_next h { same with ntMap := fun _ => by simp }
  | setMirroringSingleScreen x => exact .of_next h { same with ntMap := fun _ => by simp }
  | setMirroringAreas x y z w => exact .of_next h { same with ntMap := fun _ => by simp }

/-- Settles O54: with a descriptor `initialise` is refused, so `exec_changedByWriters` applies. -/
theorem fieldsChangeOnlyByTheirWriters : Obligations.FieldsChangeOnlyByTheirWriters := by
  intro s t i hphase h hpower
  refine exec_changedByWriters h (fun d hi => ?_) hpower
  subst hi
  exact hphase (execInitialise_next.1 h).1

/-- Settles O55: the storage is the configuration's ROMs and the two RAMs, and of the instructions left
none writes any of them. -/
theorem instructionsLeaveStorageAlone : Obligations.InstructionsLeaveStorageAlone := by
  intro s t i h hinit hpower hnvram sp a
  have hw := exec_changedByWriters h hinit hpower
  have hno : ¬∃ data, i = .setNVRAM data := fun ⟨data, hi⟩ => hnvram data hi
  have hcfg := hw.cfg
  have hprg := not_imp_comm.1 hw.prgRAM hno
  have hchr := not_imp_comm.1 hw.chrRAM hno
  refine byteAt_congr ?_ a
  cases sp <;> simp [State.storage, hcfg, hprg, hchr]

/-! ## The top program unit -/

theorem prgRequest_one_topUnit (s : State) {w : Nat} (b : Int) (hw : w < 3) :
    (prgRequest 1 w b s).prgMap[3] = s.prgMap[3] :=
  request_one_get_ne b _ _ _ (by decide) (by omega)

theorem writePrgPair_topUnit (v : Byte) (s : State) :
    (writePrgPair v s).prgMap[3] = s.prgMap[3] := by
  unfold writePrgPair
  rw [prgRequest_one_topUnit _ _ (prgFixedUnit_lt _), prgRequest_one_topUnit _ _ (prgTargetUnit_lt _)]

/-- Of the writers of the program table only `powerUp` reaches unit 3: SF6 and SF7 write units 0 to 2
(R139, R140). -/
theorem exec_topUnit {i : Instr} {s t : State} (hphase : s.phase ≠ .uninit)
    (h : exec i s = .next t) (hpower : i ≠ .powerUp) : t.prgMap[3] = s.prgMap[3] := by
  by_contra hne
  have hmap : t.prgMap ≠ s.prgMap := fun he => hne (by rw [he])
  obtain ⟨a, v, rfl⟩ | ⟨a, v, rfl⟩ :=
    (fieldsChangeOnlyByTheirWriters s t i hphase h hpower).prgMap hmap
  · obtain ⟨-, rfl⟩ := whenRunning_next.1 h
    exact hne (writePrgPair_topUnit v s)
  · obtain ⟨-, rfl⟩ := whenRunning_next.1 h
    exact hne (prgRequest_one_topUnit s _ (by decide))

/-- Settles O56: an access writes no bank table, and an instruction that moves unit 3 is `powerUp`, which
only the call `powerUp` decodes to. -/
theorem topProgramUnitIsFixed : Obligations.TopProgramUnitIsFixed := by
  intro s t hphase hstep hne
  obtain ⟨e, rest, hp, h⟩ := step_next.1 hstep
  have hrest : t.pending = rest := (runEvent_change h).pending_eq
  cases e with
  | access x =>
    obtain ⟨p, c, r, rfl⟩ := runAccess_writes h
    exact absurd rfl hne
  | transaction x =>
    obtain ⟨i, hd, h⟩ := runTransaction_next.1 h
    obtain rfl : i = .powerUp := not_imp_comm.1 (exec_topUnit (s := s.withPending rest) hphase h) hne
    have hx : x = .host .powerUp := (encode_of_decode hd).symm
    rw [hp, hrest, hx]

end Sys2Proof.Machine
end

section
/-! The window accesses (20_memory.md R52 to R55): the invariant puts every byte a window names inside
its storage, so a read answers that byte and a store changes it alone. -/

namespace Sys2Proof.Machine

/-! ## A space with all of its bytes -/

/-- The space is there, with `size` bytes in canonical form. -/
def State.Holds (s : State) (sp : Space) (size : Nat) : Prop :=
  ∃ m, s.storage sp = some m ∧ m.size = size ∧ m.wf = true

theorem State.Holds.read {s : State} {sp : Space} {size a : Nat} (h : s.Holds sp size)
    (ha : a < size) :
    ∃ b, s.byteAt sp a = some b ∧ memRead sp a s = .next (s.answer (.byte b)) := by
  obtain ⟨m, hm, rfl, -⟩ := h
  have hb : s.byteAt sp a = some (m.read a) := (byteAt_of_storage hm a).trans (if_pos ha)
  exact ⟨m.read a, hb, memRead_next.2 ⟨_, hb, rfl⟩⟩

/-- A store to a RAM replaces the content of that RAM, in the byte it names (00_scope.md R9). -/
theorem State.Holds.store {s : State} {sp : Space} {size a : Nat} (h : s.Holds sp size)
    (hram : sp = .prgRAM ∨ sp = .chrRAM) (ha : a < size) (v : Byte) :
    ∃ m, memWrite sp a v s = .next (s.withRAM sp m) ∧
      ∀ x, (s.withRAM sp m).byteAt sp x = if x = a then some v else s.byteAt sp x := by
  obtain ⟨m, hm, rfl, hwf⟩ := h
  refine ⟨m.write a v, memWrite_next.2 ⟨m, hm, ha, rfl⟩, fun x => ?_⟩
  have hnew : (s.withRAM sp (m.write a v)).storage sp = some (m.write a v) := by
    rw [withRAM_storage s sp _ hram, if_pos rfl]
  rw [byteAt_of_storage hnew, byteAt_of_storage hm, Memory.load_write hwf ha]

/-! ## The spaces of a block with a descriptor -/

theorem Descriptor.wellFormed_iff (d : Descriptor) :
    d.wellFormed = true ↔
      d.prgROMSizeOk = true ∧ d.chrPhysOk = true ∧ d.ramSizesOk = true ∧ d.batteriesFit = true ∧
        d.oneBattery = true ∧ d.romLengthsOk = true ∧ d.romsCanonical = true := by
  simp only [Descriptor.wellFormed, Bool.and_eq_true, and_assoc]

theorem romsCanonical_iff (d : Descriptor) :
    d.romsCanonical = true ↔ d.prgROM.wf = true ∧ d.chrROM.wf = true := by
  simp [Descriptor.romsCanonical]

theorem chrSpace_of_rom {d : Descriptor} (h : 0 < d.chrROMSize) : chrSpace d = .chrROM := if_pos h

theorem chrSpace_of_ram {d : Descriptor} (h : d.chrROMSize = 0) : chrSpace d = .chrRAM :=
  if_neg (Nat.not_lt.2 h.le)

theorem chrPhys_of_rom {d : Descriptor} (h : 0 < d.chrROMSize) : d.chrPhys = d.chrROMSize := if_pos h

theorem chrPhys_of_ram {d : Descriptor} (h : d.chrROMSize = 0) : d.chrPhys = d.chrRAMSize :=
  if_neg (Nat.not_lt.2 h.le)

theorem ramFits_some {size : Nat} {o : Option Memory} (h : ramFits size o) (hpos : 0 < size) :
    ∃ m, o = some m ∧ m.size = size ∧ m.wf = true := by
  cases o with
  | none => exact absurd h hpos.ne'
  | some m =>
    obtain ⟨-, hsize, hwf⟩ := h
    exact ⟨m, rfl, hsize, hwf⟩

theorem BlockInv.holds_prgROM {s : State} (h : BlockInv s) :
    s.Holds .prgROM s.cfg.descriptor.prgROMSize := by
  obtain ⟨-, -, -, -, -, hlen, hcan⟩ := (Descriptor.wellFormed_iff _).1 h.admitted
  exact ⟨_, rfl, ((romLengthsOk_iff _).1 hlen).1, ((romsCanonical_iff _).1 hcan).1⟩

theorem BlockInv.holds_prgRAM {s : State} (h : BlockInv s) (hpos : 0 < s.cfg.descriptor.prgRAMSize) :
    s.Holds .prgRAM s.cfg.descriptor.prgRAMSize :=
  ramFits_some h.prgRAM hpos

/-- The graphics storage has `CHR_PHYS` bytes, in ROM or in RAM (40_bank_window.md R118). -/
theorem BlockInv.holds_chr {s : State} (h : BlockInv s) :
    s.Holds (chrSpace s.cfg.descriptor) s.cfg.descriptor.chrPhys := by
  obtain ⟨-, hphys, -, -, -, hlen, hcan⟩ := (Descriptor.wellFormed_iff _).1 h.admitted
  obtain ⟨-, hmin⟩ := (chrPhysOk_iff _).1 hphys
  rcases Nat.eq_zero_or_pos s.cfg.descriptor.chrROMSize with hram | hrom
  · rw [chrPhys_of_ram hram] at hmin ⊢
    rw [chrSpace_of_ram hram]
    exact ramFits_some h.chrRAM (by omega)
  · rw [chrSpace_of_rom hrom, chrPhys_of_rom hrom]
    exact ⟨_, rfl, ((romLengthsOk_iff _).1 hlen).2, ((romsCanonical_iff _).1 hcan).2⟩

/-! ## Every window stays inside its storage (40_bank_window.md R117) -/

/-- A byte of a unit that the mask admits is a byte of the storage. -/
theorem unit_byte_lt {size e u off : Nat} (hp : isPow2 size = true) (he : 2 ^ e ≤ size)
    (hu : u ≤ maxUnit size e) (hoff : off < 2 ^ e) : u * 2 ^ e + off < size := by
  calc u * 2 ^ e + off
      < u * 2 ^ e + 2 ^ e := Nat.add_lt_add_left hoff _
    _ = (u + 1) * 2 ^ e := (Nat.succ_mul u _).symm
    _ ≤ (maxUnit size e + 1) * 2 ^ e := Nat.mul_le_mul_right _ (Nat.succ_le_succ hu)
    _ = size := maxUnit_bytes hp he

theorem BlockInv.prgIndex_lt {s : State} (h : BlockInv s) (a : Nat) :
    prgIndex s a < s.cfg.descriptor.prgROMSize := by
  obtain ⟨hsize, -⟩ := (Descriptor.wellFormed_iff _).1 h.admitted
  obtain ⟨hpow, hmin⟩ := (prgROMSizeOk_iff _).1 hsize
  exact unit_byte_lt (e := prgExp) ((isPow2_iff _).2 hpow) hmin (h.prgMap _)
    (Nat.mod_lt a (by decide))

theorem BlockInv.prgRamIndex_lt {s : State} (h : BlockInv s) {u : Nat} (hu : s.prgRamMap = some u)
    (a : Nat) : prgRamIndex u a < s.cfg.descriptor.prgRAMSize := by
  obtain ⟨hpos, hle⟩ := h.prgRamMap u hu
  obtain ⟨-, -, hsizes, -⟩ := (Descriptor.wellFormed_iff _).1 h.admitted
  obtain ⟨hprg, -⟩ := (ramSizesOk_iff _).1 hsizes
  obtain ⟨hpow, hmin⟩ := hprg.resolve_left hpos.ne'
  exact unit_byte_lt (e := prgExp) ((isPow2_iff _).2 hpow) hmin hle (Nat.mod_lt a (by decide))

theorem BlockInv.chrIndex_lt {s : State} (h : BlockInv s) (p : Nat) :
    chrIndex s p < s.cfg.descriptor.chrPhys := by
  obtain ⟨-, hphys, -⟩ := (Descriptor.wellFormed_iff _).1 h.admitted
  obtain ⟨hpow, hmin⟩ := (chrPhysOk_iff _).1 hphys
  exact unit_byte_lt (e := chrExp) ((isPow2_iff _).2 hpow) hmin (h.chrMap _)
    (Nat.mod_lt p (by decide))

/-! ## The unit of an address -/

theorem ofNat_shiftRight_of_unit {n x : Nat} [NeZero n] {u : Fin n} (e : Nat)
    (hu : u.val = x / 2 ^ e) : Fin.ofNat n (x >>> e) = u := by
  rw [Nat.shiftRight_eq_div_pow, ← hu, Fin.ofNat_val_eq_self]

theorem prgIndex_of_unit (s : State) {a : Nat} {u : Fin 4} (hu : u.val = (a - 0x8000) / 8192) :
    prgIndex s a = s.prgMap[u] * 8192 + a % 8192 := by
  simp only [prgIndex, ofNat_shiftRight_of_unit 13 hu]

theorem chrIndex_of_unit (s : State) {p : Nat} {u : Fin 8} (hu : u.val = p % 0x2000 / 1024) :
    chrIndex s p = s.chrMap[u] * 1024 + p % 1024 := by
  simp only [chrIndex, ofNat_shiftRight_of_unit 10 hu]

theorem ntSlot_of_unit {p : Nat} {u : Fin 4} (hu : u.val = (p % 0x4000 - 0x2000) / 1024 % 4) :
    ntSlot p = u := by
  apply Fin.ext
  rw [hu, ntSlot, ppuWindow, Nat.shiftRight_eq_div_pow]
  rfl

/-! ## The operands of an access that are in range -/

theorem runAccess_cpuStore_toNat_next {a : Nat} {v : Byte} {s t : State} :
    runAccess (.cpuStore a v.toNat) s = .next t ↔
      s.phase ≠ .uninit ∧ a ≤ 0xFFFF ∧ cpuStore a v s = .next t := by
  have hv : v.toNat ≤ 0xFF := Nat.le_of_lt_succ v.isLt
  rw [runAccess_cpuStore_next, BitVec.ofNat_toNat, BitVec.setWidth_eq]
  simp only [hv, true_and]

theorem runAccess_ppuStore_toNat_next {p : Nat} {v : Byte} {s t : State} :
    runAccess (.ppuStore p v.toNat) s = .next t ↔
      s.phase ≠ .uninit ∧ p ≤ 0xFFFF ∧ ppuStore p v s = .next t := by
  have hv : v.toNat ≤ 0xFF := Nat.le_of_lt_succ v.isLt
  rw [runAccess_ppuStore_next, BitVec.ofNat_toNat, BitVec.setWidth_eq]
  simp only [hv, true_and]

/-! ## CPU accesses, window by window (R52, R53) -/

theorem cpuRead_prgROM {a : Nat} (h : 0x8000 ≤ a) (s : State) :
    cpuRead a s = memRead .prgROM (prgIndex s a) s := if_pos h

theorem cpuRead_prgRAM {a u : Nat} {s : State} (h : 0x6000 ≤ a) (h' : a ≤ 0x7FFF)
    (hu : s.prgRamMap = some u) : cpuRead a s = memRead .prgRAM (prgRamIndex u a) s := by
  rw [cpuRead, if_neg (by omega), if_pos h, hu]

theorem cpuRead_notOurs {a : Nat} {s : State}
    (h : a < 0x6000 ∨ a ≤ 0x7FFF ∧ s.prgRamMap = none) : cpuRead a s = .next (s.answer .notOurs) := by
  rw [cpuRead, if_neg (by omega)]
  rcases h with hlow | ⟨-, hnone⟩
  · rw [if_neg (by omega)]
  · rw [hnone, ite_self]

theorem cpuStore_prgRAM {a u : Nat} {s : State} (h : 0x6000 ≤ a) (h' : a ≤ 0x7FFF)
    (hu : s.prgRamMap = some u) (v : Byte) :
    cpuStore a v s = memWrite .prgRAM (prgRamIndex u a) v s := by
  rw [cpuStore, if_pos (by omega), hu]

theorem cpuStore_outside {a : Nat} (h : a < 0x6000 ∨ 0x8000 ≤ a) (v : Byte) (s : State) :
    cpuStore a v s = .next s := by
  rw [cpuStore, if_neg (by omega)]

theorem cpuStore_unmapped {s : State} (h : s.prgRamMap = none) (a : Nat) (v : Byte) :
    cpuStore a v s = .next s := by
  rw [cpuStore, h, ite_self]

/-! ## PPU accesses, window by window (R54, R55) -/

theorem ppuRead_chr {p : Nat} (h : ppuWindow p < 0x2000) (s : State) :
    ppuRead p s = memRead (chrSpace s.cfg.descriptor) (chrIndex s p) s := if_pos h

theorem ppuStore_chrROM {p : Nat} {s : State} (h : ppuWindow p < 0x2000)
    (hrom : 0 < s.cfg.descriptor.chrROMSize) (v : Byte) : ppuStore p v s = .next s := by
  rw [ppuStore, if_pos h, chrSpace_of_rom hrom]

theorem ppuStore_chrRAM {p : Nat} {s : State} (h : ppuWindow p < 0x2000)
    (hram : s.cfg.descriptor.chrROMSize = 0) (v : Byte) :
    ppuStore p v s = memWrite .chrRAM (chrIndex s p) v s := by
  rw [ppuStore, if_pos h, chrSpace_of_ram hram]

theorem ppuRead_nametable {p : Nat} (h : 0x2000 ≤ ppuWindow p) (h' : ppuWindow p < 0x3F00)
    (s : State) : ppuRead p s = .next (s.answer (ntReply s p)) := by
  rw [ppuRead, if_neg (by omega), if_pos h']

theorem ppuStore_nametable {p : Nat} (h : 0x2000 ≤ ppuWindow p) (h' : ppuWindow p < 0x3F00)
    (v : Byte) (s : State) : ppuStore p v s = .next (s.answer (ntReply s p)) := by
  rw [ppuStore, if_neg (by omega), if_pos h']

/-! ## The statements -/

/-- Settles O45: the program table keeps the index inside the ROM, so the read finds its byte. -/
theorem programWindowRead : Obligations.ProgramWindowRead := by
  intro s a u hphase hinv hlo hhi hu
  have hb := hinv hphase
  obtain ⟨v, hv, hread⟩ := hb.holds_prgROM.read (hb.prgIndex_lt a)
  refine ⟨v, prgIndex_of_unit s hu ▸ hv, runAccess_cpuRead_next.2 ⟨hphase, hhi, ?_⟩⟩
  rw [cpuRead_prgROM hlo]
  exact hread

/-- Settles O46: while a unit is mapped its byte is one of the RAM's; every other address reaches no
storage. -/
theorem programRamWindow : Obligations.ProgramRamWindow := by
  intro s a v hphase hinv ha
  have hb := hinv hphase
  refine ⟨fun u hlo hhi hu => ?mapped, fun hout => ⟨?readOut, ?storeOut⟩, fun hrom => ?storeROM⟩
  case mapped =>
    have hholds := hb.holds_prgRAM (hb.prgRamMap u hu).1
    have hlt := hb.prgRamIndex_lt hu a
    constructor
    · obtain ⟨b, hbyte, hread⟩ := hholds.read hlt
      refine ⟨b, hbyte, runAccess_cpuRead_next.2 ⟨hphase, ha, ?_⟩⟩
      rw [cpuRead_prgRAM hlo hhi hu]
      exact hread
    · obtain ⟨m, hstore, hbytes⟩ := hholds.store (.inl rfl) hlt v
      refine ⟨_, runAccess_cpuStore_toNat_next.2 ⟨hphase, ha, ?_⟩, rfl, hbytes⟩
      rw [cpuStore_prgRAM hlo hhi hu]
      exact hstore
  case readOut => exact runAccess_cpuRead_next.2 ⟨hphase, ha, cpuRead_notOurs hout⟩
  case storeOut =>
    refine runAccess_cpuStore_toNat_next.2 ⟨hphase, ha, ?_⟩
    rcases hout with hlow | ⟨-, hnone⟩
    · exact cpuStore_outside (.inl hlow) v s
    · exact cpuStore_unmapped hnone a v
  case storeROM =>
    exact runAccess_cpuStore_toNat_next.2 ⟨hphase, ha, cpuStore_outside (.inr hrom) v s⟩

/-- Settles O47: the graphics table keeps the index inside the graphics storage, which is the ROM, closed
to stores, or the RAM. -/
theorem graphicsWindow : Obligations.GraphicsWindow := by
  intro s p u v hphase hinv hp hwin hu
  have hb := hinv hphase
  have hlt := hb.chrIndex_lt p
  have hholds := hb.holds_chr
  obtain ⟨b, hbyte, hread⟩ := hholds.read hlt
  rw [← ppuRead_chr hwin] at hread
  have haccess := runAccess_ppuRead_next.2 ⟨hphase, hp, hread⟩
  rw [← chrIndex_of_unit s hu]
  refine ⟨fun hrom => ?rom, fun hram => ?ram⟩
  case rom =>
    rw [chrSpace_of_rom hrom] at hbyte
    exact ⟨⟨b, hbyte, haccess⟩,
      runAccess_ppuStore_toNat_next.2 ⟨hphase, hp, ppuStore_chrROM hwin hrom v⟩⟩
  case ram =>
    rw [chrSpace_of_ram hram] at hbyte hholds
    obtain ⟨m, hstore, hbytes⟩ := hholds.store (.inr rfl) hlt v
    rw [← ppuStore_chrRAM hwin hram] at hstore
    exact ⟨⟨b, hbyte, haccess⟩, _, runAccess_ppuStore_toNat_next.2 ⟨hphase, hp, hstore⟩, rfl, hbytes⟩

/-- Settles O48: both accesses answer the area of the slot, and the byte is the collaborator's. -/
theorem nametableWindow : Obligations.NametableWindow := by
  intro s p u v hphase hp hlo hhi hu
  rw [← ntSlot_of_unit hu]
  exact ⟨runAccess_ppuRead_next.2 ⟨hphase, hp, ppuRead_nametable hlo hhi s⟩,
    runAccess_ppuStore_toNat_next.2 ⟨hphase, hp, ppuStore_nametable hlo hhi v s⟩⟩

/-- Settles O59: a read that completes only answers, by `cpuRead_answers` and `ppuRead_answers`. -/
theorem readsHaveNoSideEffect : Obligations.ReadsHaveNoSideEffect := by
  intro s t a h
  obtain ⟨r, rfl⟩ : ∃ r, t = s.answer r := by
    rcases h with hcpu | hppu
    · obtain ⟨-, -, hread⟩ := runAccess_cpuRead_next.1 hcpu
      exact cpuRead_answers hread
    · obtain ⟨-, -, hread⟩ := runAccess_ppuRead_next.1 hppu
      exact ppuRead_answers hread
  rfl

end Sys2Proof.Machine
end

section
/-! The register slots as rows of masks and patterns (30_encoding.md R82, R83), and the sub-function of a
bank-data write (R84). -/

namespace Sys2Proof

/-! ## The slot an address selects -/

/-- The address bits a slot's row of the opcode table looks at. -/
def Slot.mask : Slot → Addr
  | .ignored => 0x8000
  | _ => 0xE001

/-- What those bits hold when the address selects the slot (R83). -/
def Slot.pattern : Slot → Addr
  | .bankSelect => 0x8000
  | .bankData => 0x8001
  | .mirror => 0xA000
  | .prgramProtect => 0xA001
  | .irqLatch => 0xC000
  | .irqReload => 0xC001
  | .irqDisable => 0xE000
  | .irqEnable => 0xE001
  | .ignored => 0x0000

/-- A masked address, put together from the four bits the mask of R82 keeps. -/
def slotBits (b15 b14 b13 b0 : Bool) : Addr :=
  (if b15 then BitVec.twoPow 16 15 else 0) ||| (if b14 then BitVec.twoPow 16 14 else 0) |||
    (if b13 then BitVec.twoPow 16 13 else 0) ||| (if b0 then BitVec.twoPow 16 0 else 0)

theorem maskedAddress_eq_slotBits (a : Addr) :
    maskedAddress a =
      slotBits (a.getLsbD 15) (a.getLsbD 14) (a.getLsbD 13) (a.getLsbD 0) := by
  have hmask : (0xE001 : Addr) =
      .twoPow 16 15 ||| .twoPow 16 14 ||| .twoPow 16 13 ||| .twoPow 16 0 := rfl
  rw [maskedAddress, hmask, BitVec.and_or_distrib_left, BitVec.and_or_distrib_left,
    BitVec.and_or_distrib_left, BitVec.and_twoPow, BitVec.and_twoPow, BitVec.and_twoPow,
    BitVec.and_twoPow]
  rfl

theorem maskedAddress_and_mask (a : Addr) (k : Slot) : maskedAddress a &&& k.mask = a &&& k.mask := by
  rw [maskedAddress, BitVec.and_assoc]
  cases k <;> rfl

theorem slotOf_maskedAddress (a : Addr) : slotOf (maskedAddress a) = slotOf a := by
  have h : maskedAddress (maskedAddress a) = maskedAddress a := maskedAddress_and_mask a .bankSelect
  unfold slotOf
  rw [h]

/-- Only four bits of the address matter, and for each of their sixteen values the slot is the one whose
row has that pattern. -/
theorem slotOf_eq_iff (a : Addr) (k : Slot) : slotOf a = k ↔ a &&& k.mask = k.pattern := by
  rw [← slotOf_maskedAddress, ← maskedAddress_and_mask, maskedAddress_eq_slotBits]
  generalize a.getLsbD 15 = b15, a.getLsbD 14 = b14, a.getLsbD 13 = b13, a.getLsbD 0 = b0
  revert b15 b14 b13 b0
  cases k <;> decide

theorem slotOf_of_getLsbD_fifteen {a : Addr} (h : a.getLsbD 15 = false) : slotOf a = .ignored := by
  refine (slotOf_eq_iff a .ignored).2 ((BitVec.and_twoPow a 15).trans ?_)
  rw [h]
  rfl

/-! ## The rows of the opcode table -/

/-- A row of the table looks at the address alone (R81, R82). -/
theorem cpuwRows_mask_pattern : ∀ r ∈ cpuwRows,
    r.mask = cpuwWord r.slot.mask 0 ∧ r.pattern = cpuwWord r.slot.pattern 0 := by decide

theorem cpuwWord_and_eq_iff (a m p : Addr) (v : Byte) :
    cpuwWord a v &&& cpuwWord m 0 = cpuwWord p 0 ↔ a &&& m = p := by
  have hv : v &&& (0 : Byte) = 0 := BitVec.and_zero
  rw [cpuwWord, cpuwWord, cpuwWord, BitVec.and_append, hv]
  exact BitVec.append_left_inj 0

/-- Settles O3: a row covers a word when the address has the slot's pattern under the slot's mask, which
is when it selects the slot. -/
theorem tableRowsAgreeWithSlots : Obligations.TableRowsAgreeWithSlots := by
  intro a v r hr
  obtain ⟨hmask, hpattern⟩ := cpuwRows_mask_pattern r hr
  rw [CpuwRow.covers, decide_eq_true_eq, hmask, hpattern, cpuwWord_and_eq_iff, slotOf_eq_iff]

/-! ## The sub-function `command[2:0]` -/

theorem subFunction_toNat (c : Byte) : (subFunction c).toNat = c.toNat % 8 := by
  simp [subFunction]

theorem subFunction_of_mod {c : Byte} {k : BitVec 3} (h : c.toNat % 8 = k.toNat) :
    subFunction c = k :=
  BitVec.eq_of_toNat_eq ((subFunction_toNat c).trans h)

theorem subFunction_cases (c : Byte) :
    subFunction c = 0 ∨ subFunction c = 1 ∨ subFunction c = 2 ∨ subFunction c = 3 ∨
      subFunction c = 4 ∨ subFunction c = 5 ∨ subFunction c = 6 ∨ subFunction c = 7 := by
  generalize subFunction c = k
  revert k
  decide

end Sys2Proof
end

section
/-! Decoding and encoding are inverse (30_encoding.md R81 to R91): one equation per row of the opcode
table, and what every decoded instruction has in common. -/

namespace Sys2Proof

/-! ## One equation per register slot (R83) -/

section
variable {c : Byte} {a : Addr} {v : Byte}

theorem decodeWrite_bankSelect (h : slotOf a = .bankSelect) :
    decodeWrite c a v = .bankSelect a v := by rw [decodeWrite, h]

theorem decodeWrite_bankData (h : slotOf a = .bankData) :
    decodeWrite c a v = decodeBankData c a v := by rw [decodeWrite, h]

theorem decodeWrite_mirror (h : slotOf a = .mirror) :
    decodeWrite c a v = .mirror a v := by rw [decodeWrite, h]

theorem decodeWrite_prgramProtect (h : slotOf a = .prgramProtect) :
    decodeWrite c a v = .prgramProtect a v := by rw [decodeWrite, h]

theorem decodeWrite_irqLatch (h : slotOf a = .irqLatch) :
    decodeWrite c a v = .irqLatch a v := by rw [decodeWrite, h]

theorem decodeWrite_irqReload (h : slotOf a = .irqReload) :
    decodeWrite c a v = .irqReload a v := by rw [decodeWrite, h]

theorem decodeWrite_irqDisable (h : slotOf a = .irqDisable) :
    decodeWrite c a v = .irqDisable a v := by rw [decodeWrite, h]

theorem decodeWrite_irqEnable (h : slotOf a = .irqEnable) :
    decodeWrite c a v = .irqEnable a v := by rw [decodeWrite, h]

theorem decodeWrite_ignored (h : slotOf a = .ignored) :
    decodeWrite c a v = .ignored a v := by rw [decodeWrite, h]

/-! ## One equation per sub-function (R85) -/

theorem decodeBankData_sf0 (h : subFunction c = 0) :
    decodeBankData c a v = .bankDataSf0 a v := by rw [decodeBankData, h]; rfl

theorem decodeBankData_sf1 (h : subFunction c = 1) :
    decodeBankData c a v = .bankDataSf1 a v := by rw [decodeBankData, h]; rfl

theorem decodeBankData_sf2 (h : subFunction c = 2) :
    decodeBankData c a v = .bankDataSf2 a v := by rw [decodeBankData, h]; rfl

theorem decodeBankData_sf3 (h : subFunction c = 3) :
    decodeBankData c a v = .bankDataSf3 a v := by rw [decodeBankData, h]; rfl

theorem decodeBankData_sf4 (h : subFunction c = 4) :
    decodeBankData c a v = .bankDataSf4 a v := by rw [decodeBankData, h]; rfl

theorem decodeBankData_sf5 (h : subFunction c = 5) :
    decodeBankData c a v = .bankDataSf5 a v := by rw [decodeBankData, h]; rfl

theorem decodeBankData_sf6 (h : subFunction c = 6) :
    decodeBankData c a v = .bankDataSf6 a v := by rw [decodeBankData, h]; rfl

theorem decodeBankData_sf7 (h : subFunction c = 7) :
    decodeBankData c a v = .bankDataSf7 a v := by rw [decodeBankData, h]; rfl

end

/-! ## Ticks and area ids -/

theorem a12_eq_decide (p : Addr) : a12 p = decide (p.toNat / 4096 % 2 = 1) :=
  Nat.testBit_eq_decide_div_mod_eq

theorem decodeTick_low {p : Addr} (h : a12 p = false) : decodeTick p = .tickLow p := by
  rw [decodeTick, h]
  rfl

theorem decodeTick_high {p : Addr} (h : a12 p = true) : decodeTick p = .tickHigh p := by
  rw [decodeTick, h]
  rfl

theorem areaOf_val (a : Area) : areaOf a.val = .ok a := dif_pos a.isLt

/-! ## A call decodes exactly when its operands are in range (R91) -/

theorem decode_cpuw_ok {c : Byte} {a v : Nat} {i : Instr} :
    decode c (.cpuw a v) = .ok i ↔
      a ≤ 0xFFFF ∧ v ≤ 0xFF ∧ decodeWrite c (BitVec.ofNat 16 a) (BitVec.ofNat 8 v) = i := by
  rw [decode, ← Nat.not_lt, ← Nat.not_lt]
  by_cases ha : 0xFFFF < a
  · simp [ha]
  · by_cases hv : 0xFF < v <;> simp [ha, hv]

theorem decode_pput_ok {c : Byte} {p : Nat} {i : Instr} :
    decode c (.pput p) = .ok i ↔ p ≤ 0xFFFF ∧ decodeTick (BitVec.ofNat 16 p) = i := by
  rw [decode, ← Nat.not_lt]
  by_cases hp : 0xFFFF < p <;> simp [hp]

theorem decode_write {c : Byte} {a : Addr} {v : Byte} {i : Instr} (h : decodeWrite c a v = i) :
    decode c (.cpuw a.toNat v.toNat) = .ok i := by
  refine decode_cpuw_ok.2 ⟨Nat.le_of_lt_succ a.isLt, Nat.le_of_lt_succ v.isLt, ?_⟩
  simpa using h

theorem decode_bankData {c : Byte} {a : Addr} {v : Byte} {i : Instr} (ha : slotOf a = .bankData)
    (h : decodeBankData c a v = i) : decode c (.cpuw a.toNat v.toNat) = .ok i :=
  decode_write ((decodeWrite_bankData ha).trans h)

theorem decode_tick {c : Byte} {p : Addr} {i : Instr} (h : decodeTick p = i) :
    decode c (.pput p.toNat) = .ok i := by
  refine decode_pput_ok.2 ⟨Nat.le_of_lt_succ p.isLt, ?_⟩
  simpa using h

/-! ## Every decoded instruction is selected and well formed -/

theorem decodeBankData_selected_wellFormed {c : Byte} {a : Addr} (v : Byte) (ha : slotOf a = .bankData) :
    (decodeBankData c a v).selectedBy c = true ∧ (decodeBankData c a v).wellFormed = true := by
  rcases subFunction_cases c with h | h | h | h | h | h | h | h
  all_goals simp [decodeBankData, Instr.selectedBy, Instr.wellFormed, h, ha]

theorem decodeWrite_selected_wellFormed (c : Byte) (a : Addr) (v : Byte) :
    (decodeWrite c a v).selectedBy c = true ∧ (decodeWrite c a v).wellFormed = true := by
  unfold decodeWrite
  cases ha : slotOf a with
  | bankData => exact decodeBankData_selected_wellFormed v ha
  | _ => exact ⟨rfl, decide_eq_true ha⟩

theorem decodeTick_selected_wellFormed (c : Byte) (p : Addr) :
    (decodeTick p).selectedBy c = true ∧ (decodeTick p).wellFormed = true := by
  cases hp : a12 p with
  | true => exact decodeTick_high hp ▸ ⟨rfl, hp⟩
  | false => exact decodeTick_low hp ▸ ⟨rfl, by rw [Instr.wellFormed, hp]; rfl⟩

/-- A host operation has no condition, and only `initialise` has a check (R88; 00_scope.md R6). -/
theorem host_selected_wellFormed {c : Byte} {i : Instr} {call : HostCall} (h : encode i = .host call) :
    i.selectedBy c = true ∧ (i.wellFormed = true ∨ ∃ d, i = .initialise d) := by
  cases i with
  | initialise d => exact ⟨rfl, .inr ⟨d, rfl⟩⟩
  | inject | powerUp | getNVRAMSize | getNVRAM | setNVRAM | setMirroringHorizontal
  | setMirroringVertical | setMirroringFourScreen | setMirroringSingleScreen
  | setMirroringAreas => exact ⟨rfl, .inl rfl⟩
  | _ => cases h

theorem decode_selected_wellFormed {c : Byte} {x : Transaction} {i : Instr} (h : decode c x = .ok i) :
    i.selectedBy c = true ∧ (i.wellFormed = true ∨ ∃ d, i = .initialise d) := by
  cases x with
  | cpuw a v =>
    obtain ⟨-, -, rfl⟩ := decode_cpuw_ok.1 h
    exact (decodeWrite_selected_wellFormed c _ _).imp_right .inl
  | pput p =>
    obtain ⟨-, rfl⟩ := decode_pput_ok.1 h
    exact (decodeTick_selected_wellFormed c _).imp_right .inl
  | host call => exact host_selected_wellFormed (encode_of_decode h)

/-! ## The statements -/

/-- Settles O1: well-formedness is the condition of the row's slot or tick, selection that of its
sub-function, and the operands of an encoded call are in range. -/
theorem decodeOfEncodeIsIdentity : Obligations.DecodeOfEncodeIsIdentity := by
  intro c i hwf hsel
  cases i with
  | bankSelect a v => exact decode_write (decodeWrite_bankSelect (of_decide_eq_true hwf))
  | bankDataSf0 a v =>
    exact decode_bankData (of_decide_eq_true hwf) (decodeBankData_sf0 (of_decide_eq_true hsel))
  | bankDataSf1 a v =>
    exact decode_bankData (of_decide_eq_true hwf) (decodeBankData_sf1 (of_decide_eq_true hsel))
  | bankDataSf2 a v =>
    exact decode_bankData (of_decide_eq_true hwf) (decodeBankData_sf2 (of_decide_eq_true hsel))
  | bankDataSf3 a v =>
    exact decode_bankData (of_decide_eq_true hwf) (decodeBankData_sf3 (of_decide_eq_true hsel))
  | bankDataSf4 a v =>
    exact decode_bankData (of_decide_eq_true hwf) (decodeBankData_sf4 (of_decide_eq_true hsel))
  | bankDataSf5 a v =>
    exact decode_bankData (of_decide_eq_true hwf) (decodeBankData_sf5 (of_decide_eq_true hsel))
  | bankDataSf6 a v =>
    exact decode_bankData (of_decide_eq_true hwf) (decodeBankData_sf6 (of_decide_eq_true hsel))
  | bankDataSf7 a v =>
    exact decode_bankData (of_decide_eq_true hwf) (decodeBankData_sf7 (of_decide_eq_true hsel))
  | mirror a v => exact decode_write (decodeWrite_mirror (of_decide_eq_true hwf))
  | prgramProtect a v => exact decode_write (decodeWrite_prgramProtect (of_decide_eq_true hwf))
  | irqLatch a v => exact decode_write (decodeWrite_irqLatch (of_decide_eq_true hwf))
  | irqReload a v => exact decode_write (decodeWrite_irqReload (of_decide_eq_true hwf))
  | irqDisable a v => exact decode_write (decodeWrite_irqDisable (of_decide_eq_true hwf))
  | irqEnable a v => exact decode_write (decodeWrite_irqEnable (of_decide_eq_true hwf))
  | ignored a v => exact decode_write (decodeWrite_ignored (of_decide_eq_true hwf))
  | tickLow p => exact decode_tick (decodeTick_low ((Bool.not_eq_true' _).mp hwf))
  | tickHigh p => exact decode_tick (decodeTick_high hwf)
  | setMirroringSingleScreen area => simp only [encode, decode, decodeHost, areaOf_val]
  | setMirroringAreas a0 a1 a2 a3 => simp only [encode, decode, decodeHost, areaOf_val]
  | initialise | inject | powerUp | getNVRAMSize | getNVRAM | setNVRAM | setMirroringHorizontal
  | setMirroringVertical | setMirroringFourScreen => rfl

/-- Settles O2: the call is recovered by `encode_of_decode` and the row by `decode_selected_wellFormed`; an `initialise`
is well formed when its descriptor is. -/
theorem encodeOfDecodeIsIdentity : Obligations.EncodeOfDecodeIsIdentity := by
  intro c x i h
  obtain ⟨hsel, hwf | ⟨d, rfl⟩⟩ := decode_selected_wellFormed h
  · exact ⟨encode_of_decode h, hsel, .inl hwf⟩
  · cases hd : d.wellFormed with
    | true => exact ⟨encode_of_decode h, hsel, .inl hd⟩
    | false => exact ⟨encode_of_decode h, hsel, .inr ⟨d, rfl, hd⟩⟩

/-- Settles O4: the masked value is the pattern of the slot's row. -/
theorem slotTableSelectsInstruction : Obligations.SlotTableSelectsInstruction := fun _ _ a =>
  ⟨fun h => decode_write (decodeWrite_bankSelect ((slotOf_eq_iff a .bankSelect).2 h)),
    fun h => decode_write (decodeWrite_bankData ((slotOf_eq_iff a .bankData).2 h)),
    fun h => decode_write (decodeWrite_mirror ((slotOf_eq_iff a .mirror).2 h)),
    fun h => decode_write (decodeWrite_prgramProtect ((slotOf_eq_iff a .prgramProtect).2 h)),
    fun h => decode_write (decodeWrite_irqLatch ((slotOf_eq_iff a .irqLatch).2 h)),
    fun h => decode_write (decodeWrite_irqReload ((slotOf_eq_iff a .irqReload).2 h)),
    fun h => decode_write (decodeWrite_irqDisable ((slotOf_eq_iff a .irqDisable).2 h)),
    fun h => decode_write (decodeWrite_irqEnable ((slotOf_eq_iff a .irqEnable).2 h)),
    fun h => decode_write (decodeWrite_ignored (slotOf_of_getLsbD_fifteen h))⟩

/-- Settles O5: the address selects the bank-data slot, and `command` mod 8 is the sub-function. -/
theorem bankDataDispatchesOnLatchedCommand : Obligations.BankDataDispatchesOnLatchedCommand := by
  intro c v a ha
  have hslot : slotOf a = .bankData := (slotOf_eq_iff a .bankData).2 ha
  exact ⟨fun h => decode_bankData hslot (decodeBankData_sf0 (subFunction_of_mod h)),
    fun h => decode_bankData hslot (decodeBankData_sf1 (subFunction_of_mod h)),
    fun h => decode_bankData hslot (decodeBankData_sf2 (subFunction_of_mod h)),
    fun h => decode_bankData hslot (decodeBankData_sf3 (subFunction_of_mod h)),
    fun h => decode_bankData hslot (decodeBankData_sf4 (subFunction_of_mod h)),
    fun h => decode_bankData hslot (decodeBankData_sf5 (subFunction_of_mod h)),
    fun h => decode_bankData hslot (decodeBankData_sf6 (subFunction_of_mod h)),
    fun h => decode_bankData hslot (decodeBankData_sf7 (subFunction_of_mod h))⟩

/-- Settles O6: bit 12 is the remainder of the quotient by 4096. -/
theorem tickDecodesByBitTwelve : Obligations.TickDecodesByBitTwelve := by
  intro c p
  apply decode_tick
  simp only [decodeTick, a12_eq_decide, decide_eq_true_eq]

/-- Settles O7, by evaluating the decoder on each of the nine closed calls. -/
theorem sampleWordsDecode : Obligations.SampleWordsDecode := by
  unfold Obligations.SampleWordsDecode
  decide

end Sys2Proof
end

section
/-! A step on a call, from the call's operands to its completion (30_encoding.md R81, R91;
60_exceptions.md R231, R232). -/

namespace Sys2Proof.Machine

/-! ## A call whose operands are out of range -/

theorem step_refused_of_decode {s : State} {x : Transaction} {rest : List Event}
    (hp : s.pending = .transaction x :: rest) (h : ∀ i, decode s.command x ≠ .ok i) :
    ∃ e, step s = .refused (.badOperand e) := by
  cases hd : decode s.command x with
  | ok i => exact absurd hd (h i)
  | error e =>
    refine ⟨e, ?_⟩
    rw [step_of_pending hp, runEvent, runTransaction, withPending_command, hd]

/-- Settles O10: a write or a tick decodes only with its operands in range. -/
theorem outOfRangeOperandsAreRefused : Obligations.OutOfRangeOperandsAreRefused := by
  intro s rest
  refine ⟨fun a v hp hout => step_refused_of_decode hp fun i hd => ?_,
    fun p hp hout => step_refused_of_decode hp fun i hd => ?_⟩
  · obtain ⟨ha, hv, -⟩ := decode_cpuw_ok.1 hd
    omega
  · obtain ⟨hle, -⟩ := decode_pput_ok.1 hd
    omega

/-! ## A placed table word -/

/-- The address is the upper 16 bits of the word and the value its lower 8 (R81). -/
theorem cpuwWord_toNat (a : Addr) (v : Byte) :
    (cpuwWord a v).toNat = a.toNat * 256 + v.toNat := by
  rw [cpuwWord, BitVec.toNat_append, ← Nat.shiftLeft_add_eq_or_of_lt v.isLt, Nat.shiftLeft_eq]

theorem tableTransaction_cpuwWord (a : Addr) (v : Byte) :
    tableTransaction 24 (cpuwWord a v).toNat = some (.cpuw a.toNat v.toNat) := by
  have hv := v.isLt
  have hdiv : (cpuwWord a v).toNat / 256 = a.toNat := by rw [cpuwWord_toNat]; omega
  have hmod : (cpuwWord a v).toNat % 256 = v.toNat := by rw [cpuwWord_toNat]; omega
  rw [tableTransaction, if_pos rfl, hdiv, hmod]

/-- A placed word's call goes to the head of the list, so the step takes it off again. -/
theorem step_withFetchWord {s : State} {nbits w : Nat} {x : Transaction} {i : Instr}
    (hx : tableTransaction nbits w = some x) (hd : decode s.command x = .ok i) :
    step (s.withFetchWord nbits w) = exec i s := by
  have hplaced : s.withFetchWord nbits w = s.withPending (.transaction x :: s.pending) := by
    rw [State.withFetchWord, queueFirst, hx]
  rw [hplaced]
  exact (stepRunsDecodedInstruction _ s.pending).1 x i rfl hd

/-- Settles O9: a 24-bit word is the call of its two operands and a 16-bit word that of its value. -/
theorem placedWordRunsNext : Obligations.PlacedWordRunsNext := fun _ a v =>
  ⟨step_withFetchWord (tableTransaction_cpuwWord a v) (decode_write rfl),
    step_withFetchWord (x := .pput a.toNat) rfl (decode_tick rfl)⟩

/-! ## A running block completes every call -/

/-- The battery-backed RAM is there and holds its battery-backed bytes (00_scope.md R6;
43_host_interface.md R204). -/
theorem BlockInv.battery_fits {s : State} (h : BlockInv s) {sp : Space} {n : Nat}
    (hb : battery s.cfg.descriptor = some (sp, n)) : ∃ m, s.storage sp = some m ∧ n ≤ m.size := by
  obtain ⟨-, -, -, hfit, -⟩ := (Descriptor.wellFormed_iff _).1 h.admitted
  obtain ⟨hprg, hchr⟩ := (batteriesFit_iff _).1 hfit
  obtain ⟨⟨rfl, rfl⟩ | ⟨rfl, rfl⟩, hpos⟩ := battery_space hb
  · obtain ⟨m, hm, hsize, -⟩ := ramFits_some h.prgRAM (by omega)
    exact ⟨m, hm, hsize ▸ hprg⟩
  · obtain ⟨m, hm, hsize, -⟩ := ramFits_some h.chrRAM (by omega)
    exact ⟨m, hm, hsize ▸ hchr⟩

theorem execGetNVRAM_completes {s : State} (h : BlockInv s) (hphase : s.phase ≠ .uninit) :
    ∃ t, execGetNVRAM s = .next t := by
  rw [execGetNVRAM, whenInitialized_of hphase]
  split
  next => exact ⟨_, rfl⟩
  next sp n hb =>
    obtain ⟨m, hm, hn⟩ := h.battery_fits hb
    rw [batteryBytes, hm]
    exact ⟨_, if_pos hn⟩

theorem execSetNVRAM_completes {s : State} (h : BlockInv s) (hphase : s.phase ≠ .uninit)
    (data : List Byte) : ∃ t, execSetNVRAM data s = .next t := by
  rw [execSetNVRAM, whenInitialized_of hphase]
  split
  next => exact ⟨_, rfl⟩
  next sp n hb =>
    obtain ⟨m, hm, hn⟩ := h.battery_fits hb
    exact ⟨_, copyToBattery_next.2 ⟨m, hm, hn, rfl⟩⟩

/-- Only `initialise` needs another phase than Running, and only the battery's bytes need the
invariant. -/
theorem exec_completes {i : Instr} {s : State} (h : BlockInv s) (hrun : s.phase = .running)
    (hinit : ∀ d, i ≠ .initialise d) : ∃ t, exec i s = .next t := by
  have hphase : s.phase ≠ .uninit := by rw [hrun]; decide
  cases i with
  | initialise d => exact absurd rfl (hinit d)
  | powerUp => exact ⟨_, whenInitialized_of hphase _⟩
  | getNVRAMSize => exact ⟨_, whenInitialized_of hphase _⟩
  | getNVRAM => exact execGetNVRAM_completes h hphase
  | setNVRAM data => exact execSetNVRAM_completes h hphase data
  | inject | setMirroringHorizontal | setMirroringVertical | setMirroringFourScreen
  | setMirroringSingleScreen | setMirroringAreas => exact ⟨_, rfl⟩
  | _ => exact ⟨_, whenRunning_of_running hrun _⟩

/-- Nothing takes a running block out of the phase Running (10_state.md R38). -/
theorem Change.keeps_running {s t : State} (h : Change s t) (hrun : s.phase = .running) :
    t.phase = .running := by
  cases h with
  | ram sp m m' => exact (withRAM_phase s sp m').trans hrun
  | initialise d hphase => rw [hrun] at hphase; cases hphase
  | powerUp => exact poweredUp_phase s
  | _ => exact hrun

/-- Settles O52: the step is `exec` of the instruction on what is left, which completes by
`exec_completes` and stays Running. -/
theorem runningBlockCompletesEveryCall : Obligations.RunningBlockCompletesEveryCall := by
  intro s x i rest hinv hrun hp hd hinit
  have hphase : s.phase ≠ .uninit := by rw [hrun]; decide
  obtain ⟨t, ht⟩ := exec_completes (s := s.withPending rest)
    (hinv.after_withPending rest hphase) hrun hinit
  refine ⟨t, ?_, (exec_change ht).keeps_running hrun⟩
  exact ((stepRunsDecodedInstruction s rest).1 x i hp hd).trans ht

end Sys2Proof.Machine
end

section
/-! Every destination bank wraps modulo the units of its storage (40_bank_window.md R119). -/

namespace Sys2Proof.Machine

/-- The mask of an admitted storage is one less than its number of units (R110). -/
theorem maxUnit_two_pow_add_one {k e : Nat} (h : e ≤ k) :
    maxUnit (2 ^ k) e + 1 = 2 ^ k >>> e := by
  have hbytes : (maxUnit (2 ^ k) e + 1) * 2 ^ e = 2 ^ k :=
    maxUnit_bytes ((isPow2_iff _).2 ⟨k, rfl⟩) (Nat.pow_le_pow_right (by decide) h)
  rw [Nat.shiftRight_eq_div_pow]
  exact Nat.eq_div_of_mul_eq_left (Nat.two_pow_pos e).ne' hbytes

/-- The unit of a bank, read as an integer, is the bank modulo the number of units (R111). -/
theorem natCast_wrap (d : Int) (m : Nat) : (wrap d m : Int) = d % ((m + 1 : Nat) : Int) :=
  Int.toNat_of_nonneg (Int.emod_nonneg d (by omega))

theorem wrap_neg_two {m : Nat} (h : 1 ≤ m) : wrap (-2) m = m - 1 := by
  have hunit : (wrap (-2) m : Int) = m - 1 := by
    rw [natCast_wrap, ← Int.add_emod_right, Int.emod_eq_of_lt] <;> omega
  omega

/-- Settles O12: each clause is the wrap at the mask, which is one less than the number of units. -/
theorem destinationBanksWrap : Obligations.DestinationBanksWrap := by
  intro k e h
  rw [← maxUnit_two_pow_add_one h]
  refine ⟨fun d => natCast_wrap d _, wrap_neg_one _, fun htwo => ?_, fun hone d => ?_⟩
  · exact wrap_neg_two (by omega)
  · have hle := wrap_le d (maxUnit (2 ^ k) e)
    omega

end Sys2Proof.Machine
end

section
/-! The operands of the bank writes as numbers (30_encoding.md R84, R85, R86), and the source's formulas
for the graphics windows (41_register_writes.md R133 to R135). -/

namespace Sys2Proof.Machine

/-! ## The bits of the command and of a written value -/

theorem toNat_getLsbD (x : Byte) (i : Nat) : (x.getLsbD i).toNat = x.toNat / 2 ^ i % 2 :=
  Nat.toNat_testBit x.toNat i

theorem chrMode_eq (c : Byte) : chrMode c = c.toNat / 128 := by
  have hc := c.isLt
  rw [chrMode, toNat_getLsbD]
  omega

theorem prgMode_eq (c : Byte) : prgMode c = c.toNat / 64 % 2 := toNat_getLsbD c 6

theorem mirrorHorizontal_eq (v : Byte) : mirrorHorizontal v = decide (v.toNat % 2 = 1) :=
  Nat.testBit_zero v.toNat

/-! ## The windows and units -/

theorem chr2kWindow_eq (c : Byte) {k : Nat} (hk : k < 2) :
    chr2kWindow c k = 2 * (c.toNat / 128) + k := by
  rw [chr2kWindow, chrMode_eq, ← Nat.shiftLeft_add_eq_or_of_lt (i := 1) hk, Nat.shiftLeft_eq]
  omega

theorem chr1kUnit_eq (c : Byte) {k : Nat} (hk : k < 4) :
    chr1kUnit c k = 4 * (1 - c.toNat / 128) + k := by
  rw [chr1kUnit, chrMode_eq, ← Nat.shiftLeft_add_eq_or_of_lt (i := 2) hk, Nat.shiftLeft_eq]
  omega

theorem prgTargetUnit_eq (c : Byte) : prgTargetUnit c = 2 * (c.toNat / 64 % 2) := by
  rw [prgTargetUnit, prgMode_eq, Nat.shiftLeft_eq]
  omega

theorem prgFixedUnit_eq (c : Byte) : prgFixedUnit c = 2 * (1 - c.toNat / 64 % 2) := by
  rw [prgFixedUnit, prgMode_eq, Nat.shiftLeft_eq]
  omega

/-! ## The source's formulas -/

theorem toNat_shiftRight_seven (c : Byte) : (c >>> 7).toNat = chrMode c := by
  rw [chrMode_eq, BitVec.toNat_ushiftRight, Nat.shiftRight_eq_div_pow]

theorem toNat_not_shiftRight_seven (c : Byte) : (~~~c >>> 7).toNat = 1 - chrMode c := by
  have hc := c.isLt
  rw [toNat_shiftRight_seven, chrMode_eq, chrMode_eq, BitVec.toNat_not]
  omega

theorem toNat_and_one (c : Byte) : (c &&& 1).toNat = c.toNat % 2 :=
  Nat.and_two_pow_sub_one_eq_mod c.toNat 1

theorem toNat_sub_two_and_three (c : Byte) : ((c - 2) &&& 3).toNat = (c.toNat + 2) % 4 := by
  calc ((c - 2) &&& 3).toNat
      = (c - 2).toNat % 4 := Nat.and_two_pow_sub_one_eq_mod (c - 2).toNat 2
    _ = (256 - 2 + c.toNat) % 256 % 4 := by rw [BitVec.toNat_sub]; rfl
    _ = (c.toNat + 2) % 4 := by omega

/-- Settles O17: both sides have the same upper part, and the lower bits agree in each range of the
sub-function. -/
theorem sourceWindowFormulasAgree : Obligations.SourceWindowFormulasAgree := by
  intro c
  refine ⟨fun hlt => ?_, fun hge hlt => ?_⟩
  · have hlow : c.toNat % 2 = c.toNat % 8 := by omega
    rw [toNat_shiftRight_seven, toNat_and_one, hlow]
    rfl
  · have hlow : (c.toNat + 2) % 4 = c.toNat % 8 - 2 := by omega
    rw [toNat_not_shiftRight_seven, toNat_sub_two_and_three, hlow]
    rfl

end Sys2Proof.Machine
end

section
/-! The register writes (41_register_writes.md): which units a bank write moves and where to, and what
every other write leaves. -/

namespace Sys2Proof.Machine

/-! ## Bank requests by unit (40_bank_window.md R111, R113) -/

theorem request_one_get {w : Nat} (s : Nat) (b : Int) (e size : Nat) (t : Vector Nat w) {u : Nat}
    (hu : u < w) :
    (request 1 s b e size t)[u] = if u = s then wrap b (maxUnit size e) else t[u] := by
  by_cases h : u = s
  · rw [request_get, if_pos (by omega), if_pos h]
    simp [h]
  · rw [request_one_get_ne b e size t hu (Ne.symm h), if_neg h]

theorem request_two_get {w : Nat} (s : Nat) (b : Int) (e size : Nat) (t : Vector Nat w) {u : Nat}
    (hu : u < w) :
    (request 2 s b e size t)[u] =
      if u = 2 * s then wrap (2 * b) (maxUnit size e)
      else if u = 2 * s + 1 then wrap (2 * b + 1) (maxUnit size e)
      else t[u] := by
  rw [request_get, mul_comm b, Nat.mul_comm s]
  by_cases hlo : u = 2 * s
  · rw [if_pos (by omega), if_pos hlo]
    simp [hlo]
  · by_cases hhi : u = 2 * s + 1
    · rw [if_pos (by omega), if_neg hlo, if_pos hhi]
      simp [hhi]
    · rw [if_neg (by omega), if_neg hlo, if_neg hhi]

/-- With an admitted size the wrap of a bank is the bitwise and with the mask (R111). -/
theorem wrap_maxUnit_eq_and {size e : Nat} (hp : isPow2 size = true) (he : 2 ^ e ≤ size) (n : Nat) :
    wrap (n : Int) (maxUnit size e) = n &&& maxUnit size e := by
  obtain ⟨j, hj⟩ := maxUnit_isMask hp he
  rw [hj, wrap_natCast_eq_and]

/-- The second-to-last bank; a storage of one unit has only bank 0 (R119). -/
theorem wrap_neg_two_eq_sub_one (m : Nat) : wrap (-2) m = m - 1 := by
  rcases Nat.eq_zero_or_pos m with rfl | hm
  · exact Nat.le_zero.1 (wrap_le (-2) 0)
  · exact wrap_neg_two hm

section
variable {s : State} (hd : s.cfg.descriptor.wellFormed = true)
include hd

theorem wrap_prg (n : Nat) : wrap (n : Int) (maxUnit s.cfg.descriptor.prgROMSize prgExp) = n &&& s.mp := by
  obtain ⟨hsize, -⟩ := (Descriptor.wellFormed_iff _).1 hd
  obtain ⟨hpow, hmin⟩ := (prgROMSizeOk_iff _).1 hsize
  exact wrap_maxUnit_eq_and ((isPow2_iff _).2 hpow) hmin n

theorem wrap_chr (n : Nat) : wrap (n : Int) (maxUnit s.cfg.descriptor.chrPhys chrExp) = n &&& s.mc := by
  obtain ⟨-, hphys, -⟩ := (Descriptor.wellFormed_iff _).1 hd
  obtain ⟨hpow, hmin⟩ := (chrPhysOk_iff _).1 hphys
  exact wrap_maxUnit_eq_and ((isPow2_iff _).2 hpow) hmin n

/-! ## The tables after a bank write (R133 to R140) -/

theorem write2k_chrMap {k : Nat} (hk : k < 2) (v : Byte) (u : Fin 8) :
    (write2k k v s).chrMap[u] =
      if u.val = 2 * (2 * (s.command.toNat / 128) + k) then
        2 * (v.toNat >>> s.cfg.chr2kTargetShift) &&& s.mc
      else if u.val = 2 * (2 * (s.command.toNat / 128) + k) + 1 then
        (2 * (v.toNat >>> s.cfg.chr2kTargetShift) + 1) &&& s.mc
      else s.chrMap[u] := by
  rw [Fin.getElem_fin, ← wrap_chr hd, ← wrap_chr hd, ← chr2kWindow_eq s.command hk]
  exact request_two_get _ _ _ _ _ u.isLt

theorem write1k_chrMap {k : Nat} (hk : k < 4) (v : Byte) (u : Fin 8) :
    (write1k k v s).chrMap[u] =
      if u.val = 4 * (1 - s.command.toNat / 128) + k then v.toNat &&& s.mc else s.chrMap[u] := by
  rw [Fin.getElem_fin, ← wrap_chr hd, ← chr1kUnit_eq s.command hk]
  exact request_one_get _ _ _ _ _ u.isLt

theorem prgRequest_one_prgMap (w : Nat) (v : Byte) (u : Fin 4) :
    (prgRequest 1 w (bankTarget v) s).prgMap[u] =
      if u.val = w then v.toNat &&& s.mp else s.prgMap[u] := by
  rw [Fin.getElem_fin, ← wrap_prg hd]
  exact request_one_get _ _ _ _ _ u.isLt

/-- The second request comes after the first, but the two units differ. -/
theorem writePrgPair_prgMap (v : Byte) (u : Fin 4) :
    (writePrgPair v s).prgMap[u] =
      if u.val = 2 * (s.command.toNat / 64 % 2) then v.toNat &&& s.mp
      else if u.val = 2 * (1 - s.command.toNat / 64 % 2) then s.mp - 1
      else s.prgMap[u] := by
  have hfirst := prgRequest_one_prgMap hd (prgTargetUnit s.command) v u
  rw [prgTargetUnit_eq] at hfirst
  have hsecond : (writePrgPair v s).prgMap[u] =
      if u.val = 2 * (1 - s.command.toNat / 64 % 2) then s.mp - 1
      else (prgRequest 1 (prgTargetUnit s.command) (bankTarget v) s).prgMap[u] := by
    rw [← wrap_neg_two_eq_sub_one, ← prgFixedUnit_eq]
    exact request_one_get _ _ _ _ _ u.isLt
  rw [hsecond, prgTargetUnit_eq, hfirst]
  by_cases htarget : u.val = 2 * (s.command.toNat / 64 % 2)
  · rw [if_neg (by omega), if_pos htarget, if_pos htarget]
  · rw [if_neg htarget, if_neg htarget]

end

/-- Settles O15: a 2 KiB write replaces the graphics table only, unit by unit as `write2k_chrMap` says. -/
theorem twoKiBGraphicsBanks : Obligations.TwoKiBGraphicsBanks := fun _ _ v hrun hd =>
  ⟨⟨_, whenRunning_of_running hrun _, write2k_chrMap hd (k := 0) (by decide) v⟩,
    ⟨_, whenRunning_of_running hrun _, write2k_chrMap hd (k := 1) (by decide) v⟩⟩

/-- Settles O16: the four writes are `write1k` for `k = 0, 1, 2, 3`. -/
theorem oneKiBGraphicsBanks : Obligations.OneKiBGraphicsBanks := by
  intro s a v hrun hd p hp
  simp only [List.mem_cons, List.not_mem_nil, or_false] at hp
  rcases hp with rfl | rfl | rfl | rfl
  · exact ⟨_, whenRunning_of_running hrun _, write1k_chrMap hd (k := 0) (by decide) v⟩
  · exact ⟨_, whenRunning_of_running hrun _, write1k_chrMap hd (k := 1) (by decide) v⟩
  · exact ⟨_, whenRunning_of_running hrun _, write1k_chrMap hd (k := 2) (by decide) v⟩
  · exact ⟨_, whenRunning_of_running hrun _, write1k_chrMap hd (k := 3) (by decide) v⟩

/-- Settles O18: SF6 is `writePrgPair` and SF7 a request for unit 1; both replace the program table
only. -/
theorem programBanks : Obligations.ProgramBanks := fun _ _ v hrun hd =>
  ⟨⟨_, whenRunning_of_running hrun _, writePrgPair_prgMap hd v⟩,
    ⟨_, whenRunning_of_running hrun _, prgRequest_one_prgMap hd 1 v⟩⟩

/-! ## A select, then a data write (R131, R132) -/

/-- Settles O14: BANK_SELECT completes with the written byte in `command`. -/
theorem bankSelectLatchesCommand : Obligations.BankSelectLatchesCommand := fun _ _ _ hrun =>
  whenRunning_of_running hrun _

/-- Whatever the sub-function, a data write of a running block completes and moves banks only. -/
theorem exec_decodeBankData_next {s : State} (hrun : s.phase = .running) (c : Byte) (a : Addr)
    (v : Byte) :
    ∃ p m, exec (decodeBankData c a v) s = .next { s with prgMap := p, chrMap := m } := by
  rcases subFunction_cases c with h | h | h | h | h | h | h | h
  all_goals
    rw [decodeBankData, h]
    exact ⟨_, _, whenRunning_of_running hrun _⟩

/-- Settles O19: the first step latches `k`, so the second call decodes to the sub-function of `k`, which
moves banks only. -/
theorem selectThenDataRunsLatchedSubFunction :
    Obligations.SelectThenDataRunsLatchedSubFunction := by
  intro s k v rest hrun hp
  have hselect : decode s.command (.cpuw 0x8000 k.toNat) = .ok (.bankSelect 0x8000 k) :=
    decode_write (a := 0x8000) (decodeWrite_bankSelect rfl)
  have hfirst := ((stepRunsDecodedInstruction s _).1 _ _ hp hselect).trans
    (bankSelectLatchesCommand _ _ k hrun)
  have hdata : decode k (.cpuw 0x8001 v.toNat) = .ok (decodeBankData k 0x8001 v) :=
    decode_bankData (a := 0x8001) rfl rfl
  obtain ⟨p, m, hexec⟩ :=
    exec_decodeBankData_next (s := { s with command := k, pending := rest }) hrun k 0x8001 v
  refine ⟨_, _, hfirst, rfl, rfl, rfl, ?_, hexec, rfl, rfl⟩
  exact ((stepRunsDecodedInstruction _ rest).1 _ _ rfl hdata).trans hexec

/-! ## The other register writes (R141 to R147) -/

/-- Settles O20: `V[0]` is the remainder of the value by 2. -/
theorem mirrorWriteSelectsMirroring : Obligations.MirrorWriteSelectsMirroring := by
  intro s a v hrun
  refine (whenRunning_of_running hrun _).trans (congrArg _ ?_)
  rw [mirrorWrite, mirrorHorizontal_eq]
  by_cases hfour : s.cfg.descriptor.mirroring = .fourScreen
  · rw [if_pos hfour, if_pos hfour]
  · rw [if_neg hfour, if_neg hfour]
    rcases Nat.mod_two_eq_zero_or_one v.toNat with hv | hv <;> rw [hv] <;> rfl

/-- Settles O21: the two writes complete with the state itself, and `inject` needs no phase. -/
theorem callsWithoutEffect : Obligations.CallsWithoutEffect := fun _ _ _ =>
  ⟨fun hrun => ⟨whenRunning_of_running hrun _, whenRunning_of_running hrun _⟩, rfl⟩

/-- Settles O22: each write completes with its one field set. -/
theorem latchAndReloadWrites : Obligations.LatchAndReloadWrites := fun _ _ _ hrun =>
  ⟨whenRunning_of_running hrun _, whenRunning_of_running hrun _⟩

/-- Settles O23: IRQ_DISABLE goes through `clearIRQ`, IRQ_ENABLE does not touch the line. -/
theorem enableAndDisableWrites : Obligations.EnableAndDisableWrites := fun _ _ _ hrun =>
  ⟨whenRunning_of_running hrun _, whenRunning_of_running hrun _⟩

/-! ## A latch between a reload request and the edge (70_reset_and_hazards.md R267) -/

theorem highTick_of_no_delay {s : State} (h : s.irqEdgeFilterDelay = 0) :
    highTick s = { counterUpdate s with irqEdgeFilterDelay := 7 } := if_pos h

theorem highTick_irqReloadPending {s : State} (h : s.irqEdgeFilterDelay = 0) :
    (highTick s).irqReloadPending = false := by rw [highTick_of_no_delay h, counterUpdate_eq]

/-- A pending request makes the edge load the latch (42_irq_counter.md R173). -/
theorem highTick_loads_latch {s : State} (h : s.irqEdgeFilterDelay = 0)
    (hreload : s.irqReloadPending = true) : (highTick s).irqCounter = s.irqLatch := by
  rw [highTick_of_no_delay h, counterUpdate_eq]
  exact if_pos (.inr hreload)

/-- Settles O32: the request and the new latch are both in place when the tick updates the counter. -/
theorem latchAfterReloadRequestIsLoaded : Obligations.LatchAfterReloadRequestIsLoaded := by
  intro s a b p v w hrun hdelay
  refine ⟨_, _, _, (latchAndReloadWrites s a w hrun).2, rfl,
    (latchAndReloadWrites { s with irqReloadPending := true } b v hrun).1, rfl,
    whenRunning_of_running hrun _, ?_, ?_⟩
  · exact highTick_loads_latch hdelay rfl
  · exact highTick_irqReloadPending hdelay

end Sys2Proof.Machine
end

section
/-! The scanline counter (42_irq_counter.md): the ticks, the filter window over a run of instructions,
and the counter over a run of edges. -/

namespace Sys2Proof.Machine

/-! ## One tick (R171 to R175) -/

theorem eq_zero_iff_toNat {n : Nat} {x : BitVec n} : x = 0 ↔ x.toNat = 0 := by
  simp [BitVec.toNat_eq]

theorem exec_tickLow {s : State} (hrun : s.phase = .running) (p : Addr) :
    exec (.tickLow p) s = .next (lowTick s) := whenRunning_of_running hrun _

theorem exec_tickHigh {s : State} (hrun : s.phase = .running) (p : Addr) :
    exec (.tickHigh p) s = .next (highTick s) := whenRunning_of_running hrun _

theorem lowTick_delay_toNat (s : State) :
    (lowTick s).irqEdgeFilterDelay.toNat = s.irqEdgeFilterDelay.toNat - 1 := by
  unfold lowTick
  split
  next h => simp [h]
  next h =>
    change (s.irqEdgeFilterDelay - 1).toNat = _
    bv_omega

/-- The delay is the only field a low tick writes (R172). -/
theorem lowTick_eq (s : State) :
    lowTick s = { s with irqEdgeFilterDelay := (lowTick s).irqEdgeFilterDelay } := by
  obtain ⟨d, hd⟩ := lowTick_writes s
  rw [hd]

theorem highTick_of_delay {s : State} (h : s.irqEdgeFilterDelay ≠ 0) :
    highTick s = { s with irqEdgeFilterDelay := 7 } := if_neg h

theorem highTick_delay (s : State) : (highTick s).irqEdgeFilterDelay = 7 := by
  unfold highTick
  split <;> rfl

theorem highTick_updated {s : State} (h : s.irqEdgeFilterDelay = 0) : Updated s (highTick s) := by
  rw [highTick_of_no_delay h, counterUpdate_eq, Bool.or_comm]
  exact ⟨_, rfl, rfl⟩

/-- Settles O25: the new delay is that of `lowTick`, which writes no other field. -/
theorem lowTickLowersDelay : Obligations.LowTickLowersDelay := fun s p hrun =>
  ⟨_, lowTick_delay_toNat s, (exec_tickLow hrun p).trans (congrArg _ (lowTick_eq s))⟩

/-- Settles O26: with a delay pending `highTick` takes its second branch. -/
theorem filteredHighTickRestartsWindow : Obligations.FilteredHighTickRestartsWindow :=
  fun _ p hrun hdelay => (exec_tickHigh hrun p).trans (congrArg _ (highTick_of_delay hdelay))

/-- Settles O27: with no delay pending `highTick` is the written-out update. -/
theorem highTickUpdatesCounter : Obligations.HighTickUpdatesCounter :=
  fun _ p hrun hdelay => ⟨_, exec_tickHigh hrun p, highTick_updated hdelay⟩

/-! ## What an update leaves in each register (R173, R174) -/

theorem Updated.phase_eq {s t : State} (h : Updated s t) : t.phase = s.phase := by
  obtain ⟨_, -, rfl⟩ := h
  rfl

theorem Updated.irqEnabled_eq {s t : State} (h : Updated s t) : t.irqEnabled = s.irqEnabled := by
  obtain ⟨_, -, rfl⟩ := h
  rfl

theorem Updated.irqLatch_eq {s t : State} (h : Updated s t) : t.irqLatch = s.irqLatch := by
  obtain ⟨_, -, rfl⟩ := h
  rfl

theorem Updated.irqReloadPending_eq {s t : State} (h : Updated s t) : t.irqReloadPending = false := by
  obtain ⟨_, -, rfl⟩ := h
  rfl

theorem Updated.irqCounter_eq {s t : State} (h : Updated s t) :
    t.irqCounter = nextCount s.irqLatch s.irqCounter s.irqReloadPending := by
  obtain ⟨_, rfl, rfl⟩ := h
  rfl

theorem Updated.irqOut_eq {s t : State} (h : Updated s t) :
    t.irqOut = (s.irqOut ||
      assertFires s.cfg.altMode s.irqEnabled s.irqCounter s.irqReloadPending t.irqCounter) := by
  obtain ⟨_, -, rfl⟩ := h
  rfl

/-- The delay before an update is no part of what it gives. -/
theorem Updated.of_delay {s t : State} {d : BitVec 3}
    (h : Updated { s with irqEdgeFilterDelay := d } t) : Updated s t := h

theorem updated_of_exec_tickHigh {s t : State} {p : Addr} (h : exec (.tickHigh p) s = .next t)
    (hrun : s.phase = .running) (hdelay : s.irqEdgeFilterDelay = 0) : Updated s t := by
  obtain ⟨_, hexec, hupdated⟩ := highTickUpdatesCounter s p hrun hdelay
  exact Host.Outcome.next.inj (hexec.symm.trans h) ▸ hupdated

/-! ## The two chip variants (90_conflicts.md C4) -/

/-- Both variants ask for an enabled interrupt and a new counter of 0; only the alternate one asks for an
old counter that is not 0 or a request as well. -/
theorem assertFires_variants_ne_iff (enabled : Bool) (old : Byte) (reload : Bool) (new : Byte) :
    assertFires false enabled old reload new ≠ assertFires true enabled old reload new ↔
      enabled = true ∧ new = 0 ∧ old = 0 ∧ reload = false := by
  unfold assertFires
  cases enabled <;> cases reload <;> simp

theorem or_ne_or_iff (o a b : Bool) : (o || a) ≠ (o || b) ↔ o = false ∧ a ≠ b := by
  cases o <;> simp

/-- Settles O28: the variants count alike, so their lines differ where `assertFires` does; there the
counter was 0, and the new one, which must be 0, is the latch. -/
theorem chipVariantsDifferOnlyInEdgeCase : Obligations.ChipVariantsDifferOnlyInEdgeCase := by
  intro s n l p hrun hdelay hn hl
  replace hn := updated_of_exec_tickHigh hn hrun hdelay
  replace hl := updated_of_exec_tickHigh hl hrun hdelay
  refine ⟨?_, hn.irqCounter_eq.trans hl.irqCounter_eq.symm⟩
  rw [hn.irqOut_eq, hl.irqOut_eq, hn.irqCounter_eq, hl.irqCounter_eq, or_ne_or_iff,
    assertFires_variants_ne_iff]
  have hload : s.irqCounter = 0 →
      nextCount s.irqLatch s.irqCounter s.irqReloadPending = s.irqLatch := fun h => if_pos (.inl h)
  constructor
  · rintro ⟨hout, henabled, hnew, hold, hreload⟩
    exact ⟨henabled, hout, hold, hreload, (hload hold).symm.trans hnew⟩
  · rintro ⟨henabled, hout, hold, hreload, hlatch⟩
    exact ⟨hout, henabled, (hload hold).trans hlatch, hold, hreload⟩

/-! ## Runs of instructions -/

theorem execAll_cons_of_next {i : Instr} {s t : State} (h : exec i s = .next t) (rest : List Instr) :
    execAll (i :: rest) s = execAll rest t := by
  rw [execAll, h]

theorem execAll_cons_next {i : Instr} {rest : List Instr} {s u : State} :
    execAll (i :: rest) s = .next u ↔ ∃ t, exec i s = .next t ∧ execAll rest t = .next u := by
  rw [execAll]
  cases exec i s <;> simp

theorem execAll_singleton {i : Instr} {s t : State} (h : exec i s = .next t) :
    execAll [i] s = .next t := execAll_cons_of_next h []

theorem execAll_append_of_next {l : List Instr} {s t : State} (h : execAll l s = .next t)
    (rest : List Instr) : execAll (l ++ rest) s = execAll rest t := by
  induction l generalizing s with
  | nil => rw [← Host.Outcome.next.inj h, List.nil_append]
  | cons i l ih =>
    obtain ⟨u, hu, h⟩ := execAll_cons_next.1 h
    exact (execAll_cons_of_next hu _).trans (ih h)

/-! ## The filter window over a run (R171, R172, R176; 70_reset_and_hazards.md R270) -/

theorem isLowTick_iff {i : Instr} : isLowTick i = true ↔ ∃ p, i = .tickLow p := by
  cases i <;> simp [isLowTick]

theorem restartsWindow_iff {i : Instr} :
    restartsWindow i = true ↔ i = .powerUp ∨ ∃ p, i = .tickHigh p := by
  cases i <;> simp [restartsWindow]

/-- An instruction that does not restart the window lowers the delay if it is a low tick and leaves it
alone otherwise. -/
theorem exec_delay_toNat {i : Instr} {s t : State} (hrun : s.phase = .running)
    (hi : restartsWindow i = false) (h : exec i s = .next t) :
    t.irqEdgeFilterDelay.toNat = s.irqEdgeFilterDelay.toNat - if isLowTick i then 1 else 0 := by
  have hno : ¬(i = .powerUp ∨ ∃ p, i = .tickHigh p) := by simp [← restartsWindow_iff, hi]
  obtain ⟨hpower, hhigh⟩ := not_or.1 hno
  by_cases hlow : isLowTick i = true
  · obtain ⟨p, rfl⟩ := isLowTick_iff.1 hlow
    obtain ⟨-, rfl⟩ := whenRunning_next.1 h
    exact lowTick_delay_toNat s
  · have hw := fieldsChangeOnlyByTheirWriters s t i (by simp [hrun]) h hpower
    have hsame : t.irqEdgeFilterDelay = s.irqEdgeFilterDelay :=
      not_imp_comm.1 hw.irqEdgeFilterDelay (not_or.2 ⟨hhigh, mt isLowTick_iff.2 hlow⟩)
    rw [if_neg hlow, hsame, Nat.sub_zero]

/-- Over a run without restarts the delay goes down by the number of low ticks. -/
theorem execAll_delay_toNat {mid : List Instr} {s t : State} (hrun : s.phase = .running)
    (hmid : ∀ i ∈ mid, restartsWindow i = false) (h : execAll mid s = .next t) :
    t.phase = .running ∧
      t.irqEdgeFilterDelay.toNat = s.irqEdgeFilterDelay.toNat - mid.countP isLowTick := by
  induction mid generalizing s with
  | nil =>
    obtain rfl := Host.Outcome.next.inj h
    exact ⟨hrun, rfl⟩
  | cons i rest ih =>
    obtain ⟨hi, hrest⟩ := List.forall_mem_cons.1 hmid
    obtain ⟨u, hu, h⟩ := execAll_cons_next.1 h
    obtain ⟨htrun, hdelay⟩ := ih ((exec_change hu).keeps_running hrun) hrest h
    refine ⟨htrun, ?_⟩
    rw [hdelay, exec_delay_toNat hrun hi hu, List.countP_cons, Nat.sub_sub, Nat.add_comm]

/-- `powerUp` opens the window (70_reset_and_hazards.md R270); a high tick closes it for seven low ticks. -/
theorem exec_restart_delay {i : Instr} {s t : State} (hi : restartsWindow i = true)
    (h : exec i s = .next t) :
    (i = .powerUp ∧ t.irqEdgeFilterDelay.toNat = 0) ∨
      (i ≠ .powerUp ∧ t.irqEdgeFilterDelay.toNat = 7) := by
  obtain rfl | ⟨p, rfl⟩ := restartsWindow_iff.1 hi
  · obtain ⟨-, h⟩ := whenInitialized_next.1 h
    obtain rfl := Host.Outcome.next.inj h
    exact .inl ⟨rfl, by simp⟩
  · obtain ⟨-, rfl⟩ := whenRunning_next.1 h
    exact .inr ⟨by simp, by rw [highTick_delay]; rfl⟩

/-- Settles O29: the restart sets the delay to 0 or 7, the run lowers it by its low ticks, and the high
tick updates the counter exactly when nothing is left of it. -/
theorem edgeCountsAfterSevenLows : Obligations.EdgeCountsAfterSevenLows := by
  intro s h m first q mid hrun hfirst hh hmid hm
  have hstart := exec_restart_delay hfirst hh
  obtain ⟨hmrun, hdelay⟩ := execAll_delay_toNat ((exec_change hh).keeps_running hrun) hmid hm
  refine ⟨_, exec_tickHigh hmrun q, fun hopen => highTick_updated ?_,
    fun ⟨hne, hfew⟩ => highTick_of_delay ?_⟩
  · rw [eq_zero_iff_toNat, hdelay]
    rcases hstart with ⟨-, h0⟩ | ⟨hne, h7⟩
    · rw [h0, Nat.zero_sub]
    · rw [h7, Nat.sub_eq_zero_of_le (hopen.resolve_left hne)]
  · obtain ⟨-, h7⟩ := hstart.resolve_left fun h => hne h.1
    rw [ne_eq, eq_zero_iff_toNat, hdelay, h7]
    omega

/-! ## EDGE (R176) -/

/-- The pseudo-instruction EDGE. -/
def edge : List Instr := List.replicate 7 (.tickLow 0x0000) ++ [.tickHigh 0x1000]

/-- A run of low ticks writes the delay only. -/
theorem execAll_lowTicks {s : State} (hrun : s.phase = .running) (n : Nat) :
    ∃ d : BitVec 3, d.toNat = s.irqEdgeFilterDelay.toNat - n ∧
      execAll (List.replicate n (.tickLow 0x0000)) s = .next { s with irqEdgeFilterDelay := d } := by
  induction n generalizing s with
  | zero => exact ⟨_, rfl, rfl⟩
  | succ n ih =>
    obtain ⟨d, hd, hexec⟩ := lowTickLowersDelay s 0x0000 hrun
    obtain ⟨e, he, hrest⟩ := ih (s := { s with irqEdgeFilterDelay := d }) hrun
    refine ⟨e, by rw [he, hd, Nat.sub_sub, Nat.add_comm], ?_⟩
    exact (execAll_cons_of_next hexec _).trans hrest

/-- Settles O30: a delay is at most 7, so after the low ticks the high one updates the counter. -/
theorem edgeUpdatesOnce : Obligations.EdgeUpdatesOnce := by
  intro s hrun
  obtain ⟨d, hd, hlows⟩ := execAll_lowTicks hrun 7
  have hzero : d = 0 := by bv_omega
  obtain ⟨t, hexec, hupdated⟩ :=
    highTickUpdatesCounter { s with irqEdgeFilterDelay := d } 0x1000 hrun hzero
  exact ⟨t, (execAll_append_of_next hlows _).trans (execAll_singleton hexec), hupdated.of_delay⟩

/-! ## The counter over a run of edges (95_test_vectors.md S4) -/

/-- The registers after `k` edges from a counter at 0 with the latch `latch` and the line low. -/
structure AfterEdges (latch : Byte) (k : Nat) (t : State) : Prop where
  running   : t.phase = .running
  enabled   : t.irqEnabled = true
  noRequest : t.irqReloadPending = false
  latched   : t.irqLatch = latch
  counter   : t.irqCounter.toNat = if k = 0 then 0 else latch.toNat + 1 - k
  line      : t.irqOut = true ↔ k = latch.toNat + 1

/-- While the line is low the next edge loads the latch (`k = 0`) or counts down, and the line rises when
the counter reaches 0, in both variants, since it was not 0 before. -/
theorem AfterEdges.updated {latch : Byte} {k : Nat} {t u : State} (h : AfterEdges latch k t)
    (hlatch : latch ≠ 0) (hk : k ≤ latch.toNat) (hu : Updated t u) :
    AfterEdges latch (k + 1) u := by
  have hzero : t.irqCounter = 0 ↔ k = 0 := by
    rw [eq_zero_iff_toNat, h.counter]
    split <;> omega
  have hcounter : u.irqCounter.toNat = latch.toNat - k := by
    rw [hu.irqCounter_eq, nextCount_toNat, h.noRequest, h.latched, h.counter]
    simp only [hzero, Bool.false_eq_true, or_false]
    split <;> omega
  have hnew : u.irqCounter = 0 ↔ k = latch.toNat := by
    rw [eq_zero_iff_toNat, hcounter]
    omega
  have hlow : t.irqOut = false := by
    rw [← Bool.not_eq_true, h.line]
    omega
  refine ⟨hu.phase_eq.trans h.running, hu.irqEnabled_eq.trans h.enabled, hu.irqReloadPending_eq,
    hu.irqLatch_eq.trans h.latched, ?_, ?_⟩
  · rw [hcounter, if_neg k.succ_ne_zero, Nat.add_sub_add_right]
  · have hpos : latch.toNat ≠ 0 := mt eq_zero_iff_toNat.2 hlatch
    simp only [hu.irqOut_eq, hlow, h.enabled, h.noRequest, assertFires, Bool.false_or, Bool.true_and,
      Bool.or_false, Bool.and_eq_true, Bool.or_eq_true, decide_eq_true_eq, ne_eq, hnew, hzero]
    omega

theorem execAll_edges {s : State} {k : Nat} (h : AfterEdges s.irqLatch 0 s) (hlatch : s.irqLatch ≠ 0)
    (hk : k ≤ s.irqLatch.toNat + 1) :
    ∃ t, execAll (List.replicate k edge).flatten s = .next t ∧ AfterEdges s.irqLatch k t := by
  induction k with
  | zero => exact ⟨s, rfl, h⟩
  | succ k ih =>
    obtain ⟨t, hexec, ht⟩ := ih (by omega)
    obtain ⟨u, hedge, hu⟩ := edgeUpdatesOnce t ht.running
    refine ⟨u, ?_, ht.updated hlatch (by omega) hu⟩
    rw [List.replicate_succ', List.flatten_concat, execAll_append_of_next hexec]
    exact hedge

/-- Settles O31: the start is `AfterEdges` for no edge, and every edge keeps it. -/
theorem counterRoundTripRaisesLine : Obligations.CounterRoundTripRaisesLine := by
  intro s k hrun henabled hout hcounter hrequest hpos hk hlatch
  have hstart : AfterEdges s.irqLatch 0 s :=
    ⟨hrun, henabled, hrequest, rfl, by simp [hcounter], by simp [hout]⟩
  obtain ⟨t, hexec, ht⟩ := execAll_edges hstart hlatch hk
  exact ⟨t, hexec, by rw [ht.counter, if_neg (by omega)], ht.line⟩

end Sys2Proof.Machine
end

section
/-! The storage behind the host operations (43_host_interface.md R200 to R206): what a draw, `powerUp`
and a copy to the battery leave in each byte. -/

namespace Sys2Proof

/-! ## A draw that shows given bytes -/

/-- The draw that lists the byte `f a` for each of the first `n` addresses. -/
def drawCells (n : Nat) (f : Nat → Byte) : List Host.Cell := (List.range n).map fun a => (a, f a)

theorem drawCells_succ (n : Nat) (f : Nat → Byte) :
    drawCells (n + 1) f = drawCells n f ++ [(n, f n)] := by
  simp [drawCells, List.range_succ]

theorem Memory.ofDraw_concat (size : Nat) (l : List Host.Cell) (c : Host.Cell) :
    Memory.ofDraw size (l ++ [c]) = (Memory.ofDraw size l).write c.1 c.2 :=
  List.foldl_concat ..

/-- The cells come at rising addresses, so none overwrites another. -/
theorem Memory.read_ofDraw_drawCells {size n : Nat} (hn : n ≤ size) (f : Nat → Byte) (a : Nat) :
    (Memory.ofDraw size (drawCells n f)).read a = if a < n then f a else 0 := by
  induction n with
  | zero => rfl
  | succ n ih =>
    rw [drawCells_succ, Memory.ofDraw_concat, Memory.read_write (Memory.ofDraw_wf ..),
      Memory.ofDraw_size, ih (by omega)]
    by_cases ha : a = n
    · rw [if_pos ⟨ha, hn⟩, if_pos (by omega), ha]
    · rw [if_neg fun h => ha h.1]
      exact if_congr (by omega) rfl rfl

/-! ## Zeroed and copied bytes -/

theorem Memory.zeroFrom_zero (m : Memory) : m.zeroFrom 0 = Memory.zeros m.size := by
  simp [Memory.zeroFrom, Memory.zeros]

/-- The first `n` bytes of `data`, copied to the front, are there as far as `data` goes (R206). -/
theorem Memory.load_writeBytes_take {m : Memory} (h : m.wf = true) {n : Nat} (hn : n ≤ m.size)
    {data : List Byte} {j : Nat} (hj : j < min data.length n) :
    (m.writeBytes 0 (data.take n)).load j = data[j]? := by
  obtain ⟨hlen, hjn⟩ := Nat.lt_min.1 hj
  have htake : (data.take n).length = min n data.length := List.length_take
  rw [Memory.load, Memory.writeBytes_size, if_pos (by omega),
    Memory.read_writeBytes h 0 _ (by omega), if_pos (by omega)]
  simp [hlen, hjn]

theorem Memory.readBytes_getElem?_eq_load {m : Memory} {n j : Nat} (hn : n ≤ m.size) (hj : j < n) :
    (m.readBytes n)[j]? = m.load j := by
  rw [Memory.readBytes_getElem?, if_pos hj, Memory.load, if_pos (by omega)]

end Sys2Proof

namespace Sys2Proof.Machine

/-! ## Newly allocated RAM (R200) -/

theorem allocate_of_pos {size : Nat} (h : 0 < size) (l : List Host.Cell) :
    allocate size l = some (Memory.ofDraw size l) := if_pos h

theorem allocate_eq_none {size : Nat} {l : List Host.Cell} : allocate size l = none ↔ size = 0 := by
  unfold allocate
  split
  next h => simp [h.ne']
  next h => simpa using h

theorem size_of_allocate {size : Nat} {l : List Host.Cell} {m : Memory}
    (h : allocate size l = some m) : m.size = size := by
  have hfits := ramFits_allocate size l
  rw [h] at hfits
  exact hfits.2.1

theorem load_allocate_drawCells {size a : Nat} (ha : a < size) (f : Nat → Byte) :
    ((allocate size (drawCells size f)).bind fun m => m.load a) = some (f a) := by
  rw [allocate_of_pos (by omega), Option.bind_some, Memory.load, Memory.ofDraw_size, if_pos ha,
    Memory.read_ofDraw_drawCells le_rfl, if_pos ha]

/-! ## A write to a RAM -/

/-- A byte differs after a write only if it is the written one. -/
theorem memWrite_byte_changed {sp sp' : Space} {i a : Nat} {v : Byte} {s t : State}
    (hram : sp = .prgRAM ∨ sp = .chrRAM) (h : memWrite sp i v s = .next t)
    (hne : t.byteAt sp' a ≠ s.byteAt sp' a) : sp' = sp ∧ a = i := by
  obtain ⟨m, hm, -, rfl⟩ := memWrite_next.1 h
  have hstorage := withRAM_storage s sp (m.write i v) hram sp'
  by_cases hsp : sp' = sp
  · subst hsp
    rw [if_pos rfl] at hstorage
    rw [byteAt_of_storage hstorage, byteAt_of_storage hm] at hne
    exact ⟨rfl, not_imp_comm.1 (m.load_write_ne v) hne⟩
  · rw [if_neg hsp] at hstorage
    exact absurd (byteAt_congr hstorage a) hne

/-! ## powerUp (R202) -/

theorem exec_powerUp_next {s t : State} :
    exec .powerUp s = .next t ↔ s.phase ≠ .uninit ∧ t = poweredUp s := by
  rw [exec, execPowerUp, whenInitialized_next, Host.Outcome.next.injEq, eq_comm (a := t)]

/-- The bytes of a RAM, absent or not, after the zeroing behind its first `n` bytes. -/
theorem load_map_zeroFrom (o : Option Memory) (n a : Nat) :
    ((o.map fun m => m.zeroFrom n).bind fun m => m.load a) =
      if a < n then o.bind fun m => m.load a else (o.bind fun m => m.load a).map fun _ => 0 := by
  cases o with
  | none => exact (ite_self _).symm
  | some m => exact m.load_zeroFrom n a

/-- Settles O38: `zeroSuffixes` is the part of `powerUp` that touches the storage, and it zeroes each RAM
behind its battery-backed part. -/
theorem powerUpKeepsBatteryBytes : Obligations.PowerUpKeepsBatteryBytes := by
  intro s t _ h a
  obtain ⟨-, rfl⟩ := exec_powerUp_next.1 h
  refine ⟨byteAt_congr ?_ a, byteAt_congr ?_ a, ?_, ?_⟩
  · simp only [State.storage, poweredUp_cfg]
  · simp only [State.storage, poweredUp_cfg]
  · simp only [State.byteAt, State.storage, poweredUp_prgRAM]
    exact load_map_zeroFrom ..
  · simp only [State.byteAt, State.storage, poweredUp_chrRAM]
    exact load_map_zeroFrom ..

theorem poweredUp_batteryByte {s : State} (hphase : s.phase ≠ .uninit) {sp : Space} {n a : Nat}
    (hb : battery s.cfg.descriptor = some (sp, n)) (ha : a < n) :
    (poweredUp s).byteAt sp a = s.byteAt sp a := by
  obtain ⟨-, -, hprg, hchr⟩ :=
    powerUpKeepsBatteryBytes s _ hphase (exec_powerUp_next.2 ⟨hphase, rfl⟩) a
  obtain ⟨⟨rfl, rfl⟩ | ⟨rfl, rfl⟩, -⟩ := battery_space hb
  · rw [hprg, if_pos ha]
  · rw [hchr, if_pos ha]

/-! ## The battery-backed part (R204 to R206) -/

theorem batSize_eq (d : Descriptor) :
    batSize d =
      if 0 < d.prgRAMSizeBattery then d.prgRAMSizeBattery else d.chrRAMSizeBattery := by
  unfold batSize battery
  by_cases hprg : 0 < d.prgRAMSizeBattery
  · simp [hprg]
  · by_cases hchr : 0 < d.chrRAMSizeBattery
    · simp [hprg, hchr]
    · simp [hprg, Nat.eq_zero_of_not_pos hchr]

theorem battery_isRAM {d : Descriptor} {sp : Space} {n : Nat} (h : battery d = some (sp, n)) :
    sp = .prgRAM ∨ sp = .chrRAM := (battery_space h).1.imp And.left And.left

theorem BlockInv.ram_wf {s : State} (h : BlockInv s) {sp : Space} {m : Memory}
    (hram : sp = .prgRAM ∨ sp = .chrRAM) (hm : s.storage sp = some m) : m.wf = true := by
  rcases hram with rfl | rfl
  · have hprg : s.prgRAM = some m := hm
    obtain ⟨-, -, hwf⟩ := hprg ▸ h.prgRAM
    exact hwf
  · have hchr : s.chrRAM = some m := hm
    obtain ⟨-, -, hwf⟩ := hchr ▸ h.chrRAM
    exact hwf

theorem exec_getNVRAM_of_battery {s : State} (hphase : s.phase ≠ .uninit) {sp : Space} {n : Nat}
    (hb : battery s.cfg.descriptor = some (sp, n)) {m : Memory} (hm : s.storage sp = some m)
    (hn : n ≤ m.size) :
    exec .getNVRAM s = .next (s.answer (.nvram (some (m.readBytes n)))) := by
  rw [exec, execGetNVRAM, whenInitialized_of hphase, hb]
  simp only [batteryBytes, hm, if_pos hn]

theorem exec_setNVRAM_of_no_battery {s : State} (hphase : s.phase ≠ .uninit)
    (hb : battery s.cfg.descriptor = none) (data : List Byte) :
    exec (.setNVRAM data) s = .next s := by
  rw [exec, execSetNVRAM, whenInitialized_of hphase, hb]

theorem exec_setNVRAM_next_of_battery {s t : State} {sp : Space} {n : Nat} {data : List Byte}
    (hb : battery s.cfg.descriptor = some (sp, n)) :
    exec (.setNVRAM data) s = .next t ↔
      s.phase ≠ .uninit ∧ ∃ m, s.storage sp = some m ∧ n ≤ m.size ∧
        t = s.withRAM sp (m.writeBytes 0 (data.take n)) := by
  rw [exec, execSetNVRAM, hb, whenInitialized_next]
  exact and_congr_right fun _ => copyToBattery_next

/-- A copy leaves every other space alone, and the battery's behind the copied bytes. -/
theorem exec_setNVRAM_byte_outside {s t : State} {sp sp' : Space} {n a : Nat} {data : List Byte}
    (hb : battery s.cfg.descriptor = some (sp, n)) (h : exec (.setNVRAM data) s = .next t)
    (hout : sp' = sp → min data.length n ≤ a) : t.byteAt sp' a = s.byteAt sp' a := by
  obtain ⟨-, m, hm, -, rfl⟩ := (exec_setNVRAM_next_of_battery hb).1 h
  have hstorage := withRAM_storage s sp (m.writeBytes 0 (data.take n)) (battery_isRAM hb) sp'
  by_cases hsp : sp' = sp
  · subst hsp
    rw [if_pos rfl] at hstorage
    rw [byteAt_of_storage hstorage, byteAt_of_storage hm]
    refine m.load_writeBytes_outside 0 _ (.inr ?_)
    rw [List.length_take, Nat.zero_add, Nat.min_comm]
    exact hout rfl
  · rw [if_neg hsp] at hstorage
    exact byteAt_congr hstorage a

theorem BlockInv.setNVRAM_byte_copied {s t : State} (hinv : BlockInv s) {sp : Space} {n j : Nat}
    {data : List Byte} (hb : battery s.cfg.descriptor = some (sp, n))
    (h : exec (.setNVRAM data) s = .next t) (hj : j < min data.length n) :
    t.byteAt sp j = data[j]? := by
  obtain ⟨-, m, hm, hn, rfl⟩ := (exec_setNVRAM_next_of_battery hb).1 h
  have hram := battery_isRAM hb
  have hstorage := withRAM_storage s sp (m.writeBytes 0 (data.take n)) hram sp
  rw [if_pos rfl] at hstorage
  rw [byteAt_of_storage hstorage]
  exact Memory.load_writeBytes_take (hinv.ram_wf hram hm) hn hj

/-! ## What changes a byte -/

/-- Of the window accesses only the two stores change a byte, each the one its window names (20_memory.md
R53, R54). -/
theorem runAccess_byte_changed {x : Access} {s t : State} {sp : Space} {a : Nat}
    (h : runAccess x s = .next t) (hne : t.byteAt sp a ≠ s.byteAt sp a) :
    (∃ y v u, x = .cpuStore y v ∧ sp = .prgRAM ∧ 0x6000 ≤ y ∧ y ≤ 0x7FFF ∧
      s.prgRamMap = some u ∧ a = prgRamIndex u y) ∨
    ∃ p v, x = .ppuStore p v ∧ sp = .chrRAM ∧ s.cfg.descriptor.chrROMSize = 0 ∧
      p % 0x4000 < 0x2000 ∧ a = chrIndex s p := by
  cases x with
  | cpuRead y =>
    obtain ⟨-, -, h⟩ := runAccess_cpuRead_next.1 h
    obtain ⟨r, rfl⟩ := cpuRead_answers h
    exact absurd (answer_byteAt ..) hne
  | cpuStore y v =>
    obtain ⟨-, -, -, h⟩ := runAccess_cpuStore_next.1 h
    obtain rfl | ⟨u, hlo, hhi, hu, h⟩ := cpuStore_cases h
    · exact absurd rfl hne
    · obtain ⟨rfl, rfl⟩ := memWrite_byte_changed (.inl rfl) h hne
      exact .inl ⟨y, v, u, rfl, rfl, hlo, Nat.le_of_lt_succ hhi, hu, rfl⟩
  | ppuRead p =>
    obtain ⟨-, -, h⟩ := runAccess_ppuRead_next.1 h
    obtain ⟨r, rfl⟩ := ppuRead_answers h
    exact absurd (answer_byteAt ..) hne
  | ppuStore p v =>
    obtain ⟨-, -, -, h⟩ := runAccess_ppuStore_next.1 h
    obtain rfl | ⟨r, rfl⟩ | ⟨hwin, hsp, h⟩ := ppuStore_cases h
    · exact absurd rfl hne
    · exact absurd (answer_byteAt ..) hne
    · obtain ⟨rfl, rfl⟩ := memWrite_byte_changed (.inr rfl) h hne
      have hrom : ¬0 < s.cfg.descriptor.chrROMSize := fun hpos => by
        rw [chrSpace_of_rom hpos] at hsp
        cases hsp
      exact .inr ⟨p, v, rfl, rfl, Nat.eq_zero_of_not_pos hrom, hwin, rfl⟩

/-- Of the instructions only a long enough `setNVRAM` changes a battery-backed byte (R202, R206). -/
theorem exec_batteryByte_changed {i : Instr} {s t : State} {sp : Space} {n a : Nat}
    (hphase : s.phase ≠ .uninit) (h : exec i s = .next t)
    (hb : battery s.cfg.descriptor = some (sp, n)) (ha : a < n)
    (hne : t.byteAt sp a ≠ s.byteAt sp a) :
    ∃ data, i = .setNVRAM data ∧ a < min data.length n := by
  by_contra hno
  refine hne (instructionsLeaveStorageAlone s t i h ?init ?power ?nvram sp a)
  case init =>
    rintro d rfl
    exact hphase (execInitialise_next.1 h).1
  case power =>
    rintro rfl
    obtain ⟨-, rfl⟩ := exec_powerUp_next.1 h
    exact hne (poweredUp_batteryByte hphase hb ha)
  case nvram =>
    rintro data rfl
    have hshort : ¬a < min data.length n := fun hlt => hno ⟨data, rfl, hlt⟩
    exact hne (exec_setNVRAM_byte_outside hb h fun _ => Nat.not_lt.1 hshort)

/-- Settles O58: a step runs an instruction or an access, and each changes a battery-backed byte in the
named ways only. -/
theorem batteryBytesChangeOnlyByStores : Obligations.BatteryBytesChangeOnlyByStores := by
  intro s t sp n a hphase hstep hb ha hne
  obtain ⟨e, rest, hp, h⟩ := step_next.1 hstep
  have hrest : t.pending = rest := (runEvent_change h).pending_eq
  rw [hp, hrest]
  cases e with
  | transaction x =>
    obtain ⟨i, hd, h⟩ := runTransaction_next.1 h
    obtain ⟨data, rfl, hlt⟩ := exec_batteryByte_changed (s := s.withPending rest) hphase h hb ha hne
    have hx : x = .host (.setNVRAM data) := (encode_of_decode hd).symm
    exact .inl ⟨data, by rw [hx], hlt⟩
  | access x =>
    obtain ⟨y, v, u, rfl, hstore⟩ | ⟨p, v, rfl, hstore⟩ :=
      runAccess_byte_changed (s := s.withPending rest) h hne
    · exact .inr (.inl ⟨y, v, u, rfl, hstore⟩)
    · exact .inr (.inr ⟨p, v, rfl, hstore⟩)

end Sys2Proof.Machine
end

section
/-! The host operations (43_host_interface.md): what each one completes with, and when it is refused. -/

namespace Sys2Proof.Machine

/-! ## The first call (R200) -/

theorem exec_initialise {s : State} {d : Descriptor} (hphase : s.phase = .uninit)
    (hd : d.wellFormed = true) : exec (.initialise d) s = .next (initialized d s) :=
  execInitialise_next.2 ⟨hphase, hd, rfl⟩

/-- Settles O33: each RAM is the one that `allocate` gives for its size. -/
theorem initializeAllocates : Obligations.InitializeAllocates := fun _ _ hphase hd =>
  ⟨_, exec_initialise hphase hd, rfl, rfl, allocate_eq_none, fun _ => size_of_allocate,
    allocate_eq_none, fun _ => size_of_allocate, rfl, rfl⟩

/-- Settles O34: the draw lists the bytes of both RAMs, and its other fields do not matter. -/
theorem initialRamIsAnyBytes : Obligations.InitialRamIsAnyBytes := by
  intro s d f g hphase hd
  refine ⟨{ s.draw with prgRAM := drawCells d.prgRAMSize f, chrRAM := drawCells d.chrRAMSize g }, _,
    exec_initialise hphase hd, fun a ha => ?_, fun a ha => ?_⟩
  · exact load_allocate_drawCells ha f
  · exact load_allocate_drawCells ha g

/-- Settles O35: `initialise` asks for phase Uninit, the other four for any other phase. -/
theorem bootOrderRefusals : Obligations.BootOrderRefusals := by
  intro s d data
  refine ⟨fun hphase => if_neg hphase, fun hphase hd => ?_, fun hphase =>
    ⟨whenInitialized_refused hphase _, whenInitialized_refused hphase _,
      whenInitialized_refused hphase _, whenInitialized_refused hphase _⟩⟩
  rw [exec, execInitialise, if_pos hphase, if_neg (by simp [hd])]

/-! ## powerUp (R202; 70_reset_and_hazards.md R260) -/

/-- A request for every unit of a table forgets what the table held. -/
theorem request_all_congr {w : Nat} (b : Int) (e size : Nat) (t t' : Vector Nat w) :
    request w 0 b e size t = request w 0 b e size t' := by
  refine Vector.ext fun u hu => ?_
  rw [request_get, request_get, if_pos (by omega), if_pos (by omega)]

theorem prgRamUnit_zero (size : Nat) : prgRamUnit 0 size = 0 := by
  rw [prgRamUnit_eq]
  exact (wrap_natCast 0 _).trans (Nat.zero_mod _)

theorem poweredUp_prgMap_get (s : State) (i : Fin 4) :
    ((poweredUp s).prgMap[i] : Int) = ((i.val : Int) - 4) % ((s.mp : Int) + 1) := by
  have hbank : (-1 : Int) * (4 : Nat) + ((i.val - 0 * 4 : Nat) : Int) = (i.val : Int) - 4 := by omega
  rw [poweredUp_prgMap, Fin.getElem_fin, request_get, if_pos (by omega), natCast_wrap, hbank]
  rfl

theorem poweredUp_chrMap_get {s : State} (hd : s.cfg.descriptor.wellFormed = true) (i : Fin 8) :
    (poweredUp s).chrMap[i] = i.val &&& s.mc := by
  rw [poweredUp_chrMap, Fin.getElem_fin, request_get, if_pos (by omega), ← wrap_chr hd]
  congr 1
  omega

theorem poweredUp_prgRamMap_eq (s : State) :
    (poweredUp s).prgRamMap = if s.cfg.descriptor.prgRAMSize = 0 then none else some 0 := by
  rw [poweredUp_prgRamMap, prgRamUnit_zero]
  by_cases h : s.cfg.descriptor.prgRAMSize = 0
  · rw [if_pos h, if_neg (by omega)]
  · rw [if_neg h, if_pos (by omega)]

/-- Settles O37: `powerUp` completes with `poweredUp s`, and each of its fields has a lemma. -/
theorem powerUpResetsBlock : Obligations.PowerUpResetsBlock := by
  intro s hphase hd
  have hareas := poweredUp_ntMap s
  exact ⟨_, exec_powerUp_next.2 ⟨hphase, rfl⟩, by simp, poweredUp_prgMap_get s,
    request_reset_top _ _ _, poweredUp_prgRamMap_eq s, poweredUp_chrMap_get hd,
    fun h => hareas.trans (congrArg areas h), fun h => hareas.trans (congrArg areas h),
    fun h => hareas.trans (congrArg areas h), fun _ h => hareas.trans (congrArg areas h), by simp⟩

/-- The whole state after `powerUp`: that of `reset()`, with the descriptor's mirroring, the RAMs zeroed
behind their batteries and the phase Running. -/
theorem poweredUp_eq (s : State) :
    poweredUp s =
      { resetBlock s with
        ntMap := areas s.cfg.descriptor.mirroring
        prgRAM := s.prgRAM.map fun m => m.zeroFrom s.cfg.descriptor.prgRAMSizeBattery
        chrRAM := s.chrRAM.map fun m => m.zeroFrom s.cfg.descriptor.chrRAMSizeBattery
        phase := .running } := by
  rw [poweredUp, resetBlock_eq, resetBlock_eq]
  rfl

/-- Settles O39: `reset()` requests every unit of both tables, and without a battery the RAM is zeroed
from its first byte on. -/
theorem resetStateIsPowerUp : Obligations.ResetStateIsPowerUp := by
  intro s m hphase hcfg hprg hsize hchr
  refine exec_powerUp_next.2 ⟨hphase, ?_⟩
  have hram : m.zeroFrom State.reset.cfg.descriptor.prgRAMSizeBattery = Memory.zeros 0x2000 :=
    hsize ▸ m.zeroFrom_zero
  rw [poweredUp_eq, resetBlock_eq, hcfg, hprg, hchr, Option.map_some, hram,
    request_all_congr _ _ _ s.prgMap State.reset.prgMap,
    request_all_congr _ _ _ s.chrMap State.reset.chrMap]
  rfl

/-! ## The battery-backed bytes (R204 to R206) -/

/-- Settles O40: the answer is `batSize`, written out by `batSize_eq`. -/
theorem nvramSizeIsBatterySize : Obligations.NvramSizeIsBatterySize := by
  intro s hphase
  rw [← batSize_eq]
  exact whenInitialized_of hphase _

/-- Settles O41: under the invariant the RAM with the battery holds the battery-backed part, which
`readBytes` lists in order. -/
theorem getNvramAnswersBatteryBytes : Obligations.GetNvramAnswersBatteryBytes := by
  intro s hphase hinv
  refine ⟨fun hb => ?_, fun sp n hb => ?_⟩
  · rw [exec, execGetNVRAM, whenInitialized_of hphase, hb]
    rfl
  · obtain ⟨m, hm, hn⟩ := (hinv hphase).battery_fits hb
    refine ⟨_, exec_getNVRAM_of_battery hphase hb hm hn, m.readBytes_length n, fun j hj => ?_⟩
    rw [byteAt_of_storage hm, Memory.readBytes_getElem?_eq_load hn hj]

/-- Settles O42: the copied bytes need the canonical form of the RAM; all others stay in any state. -/
theorem setNvramCopiesBytes : Obligations.SetNvramCopiesBytes := by
  intro s data hphase hinv
  obtain ⟨t, h⟩ := execSetNVRAM_completes (hinv hphase) hphase data
  refine ⟨t, h, ?_, fun sp n hb j hj => (hinv hphase).setNVRAM_byte_copied hb h hj,
    fun sp n hb j hj => exec_setNVRAM_byte_outside hb h fun _ => hj, fun sp' hno j => ?_⟩
  · obtain ⟨p, c, rfl⟩ := execSetNVRAM_writes h
    rfl
  · cases hb : battery s.cfg.descriptor with
    | none =>
      obtain rfl := Host.Outcome.next.inj ((exec_setNVRAM_of_no_battery hphase hb data).symm.trans h)
      rfl
    | some b =>
      obtain ⟨sp, n⟩ := b
      refine exec_setNVRAM_byte_outside hb h fun hsp => absurd ?_ (hno n)
      rw [hb, hsp]

/-- Settles O43: the three calls complete by O42, O37 and O41, and the user reset keeps the bytes that
the first one copied. -/
theorem nvramSurvivesUserReset : Obligations.NvramSurvivesUserReset := by
  intro s data sp n hphase hinv hb
  obtain ⟨t, hset, hframe, hcopied, -, -⟩ := setNvramCopiesBytes s data hphase hinv
  have htphase : t.phase ≠ .uninit := by rw [hframe]; exact hphase
  have htb : battery t.cfg.descriptor = some (sp, n) := by rw [hframe]; exact hb
  have hpower : exec .powerUp t = .next (poweredUp t) := exec_powerUp_next.2 ⟨htphase, rfl⟩
  have hinv' : Inv (poweredUp t) := (exec_change hpower).keeps_inv ((exec_change hset).keeps_inv hinv)
  obtain ⟨l, hget, hlen, hbytes⟩ :=
    (getNvramAnswersBatteryBytes (poweredUp t) (by simp) hinv').2 sp n (by rw [poweredUp_cfg, htb])
  refine ⟨_, l, (execAll_cons_of_next hset _).trans ((execAll_cons_of_next hpower _).trans
    (execAll_singleton hget)), rfl, hlen, List.ext_getElem? fun j => ?_⟩
  by_cases hj : j < min data.length n
  · obtain ⟨hjd, hjn⟩ := Nat.lt_min.1 hj
    rw [List.getElem?_take_of_lt hjd, List.getElem?_take_of_lt hjn, hbytes j hjn,
      poweredUp_batteryByte htphase htb hjn, hcopied sp n hb j hj]
  · rw [List.getElem?_eq_none (by rw [List.length_take]; omega),
      List.getElem?_eq_none (by rw [List.length_take]; omega)]

/-! ## The mirroring setters (R207 to R211) -/

theorem areaOf_error {a : Nat} (h : 4 ≤ a) : areaOf a = .error .areaOutOfRange :=
  dif_neg (Nat.not_lt.2 h)

theorem decodeHost_singleScreen_error {a : Nat} (h : 4 ≤ a) :
    decodeHost (.setMirroringSingleScreen a) = .error .areaOutOfRange := by
  rw [decodeHost, areaOf_error h]

theorem decodeHost_areas_error {a b c d : Nat} (h : 4 ≤ a ∨ 4 ≤ b ∨ 4 ≤ c ∨ 4 ≤ d) :
    decodeHost (.setMirroringAreas a b c d) = .error .areaOutOfRange := by
  rw [decodeHost]
  split
  next ha hb hc hd =>
    rw [← areaOf_ok ha, ← areaOf_ok hb, ← areaOf_ok hc, ← areaOf_ok hd] at h
    omega
  next => rfl

theorem step_of_decode_error {s : State} {x : Transaction} {rest : List Event} {e : DecodeError}
    (hp : s.pending = .transaction x :: rest) (h : decode s.command x = .error e) :
    step s = .refused (.badOperand e) := by
  rw [step_of_pending hp, runEvent, runTransaction, withPending_command, h]

/-- Settles O44: a setter is `setAreas` with its table, and an area id decodes only below 4. -/
theorem mirroringSetters : Obligations.MirroringSetters := fun _ _ _ _ _ _ =>
  ⟨rfl, rfl, rfl, fun _ => rfl, fun _ _ _ _ => rfl,
    fun hp h => step_of_decode_error hp (decodeHost_singleScreen_error h),
    fun hp h => step_of_decode_error hp (decodeHost_areas_error h)⟩

end Sys2Proof.Machine
end

section
/-! The block raises no exception (60_exceptions.md R230): under the invariant a call or an access answers
a next state or is refused. -/

namespace Sys2Proof.Machine

/-! ## Outcomes that are no fault -/

theorem no_fault_of_completes {o : Outcome} (h : ∃ t, o = .next t) (f : Fault) : o ≠ .fault f := by
  obtain ⟨t, rfl⟩ := h
  exact nofun

theorem ite_refused_no_fault {c : Prop} [Decidable c] {r : Refusal} {o : Outcome} {f : Fault}
    (h : o ≠ .fault f) : (if c then .refused r else o) ≠ .fault f := by
  split
  · exact nofun
  · exact h

theorem whenInitialized_no_fault {s : State} {o : Outcome} {f : Fault}
    (h : s.phase ≠ .uninit → o ≠ .fault f) : whenInitialized s o ≠ .fault f := by
  by_cases hphase : s.phase = .uninit
  · rw [whenInitialized_refused hphase]
    exact nofun
  · rw [whenInitialized_of hphase]
    exact h hphase

theorem whenInitialized_no_fault_of_completes {s : State} {o : Outcome} {f : Fault}
    (h : s.phase ≠ .uninit → ∃ t, whenInitialized s o = .next t) : whenInitialized s o ≠ .fault f :=
  whenInitialized_no_fault fun hphase =>
    no_fault_of_completes (whenInitialized_of hphase o ▸ h hphase) f

/-! ## The instructions -/

theorem execInitialise_no_fault (d : Descriptor) (s : State) (f : Fault) :
    execInitialise d s ≠ .fault f := by
  unfold execInitialise
  split
  · split <;> exact nofun
  · exact nofun

/-- Of the instructions only `getNVRAM` and `setNVRAM` touch storage that may be missing, and the
invariant gives it to them. -/
theorem exec_no_fault {s : State} (hinv : Inv s) (i : Instr) (f : Fault) : exec i s ≠ .fault f := by
  cases i with
  | initialise d => exact execInitialise_no_fault d s f
  | powerUp => exact whenInitialized_no_fault fun _ => nofun
  | getNVRAMSize => exact whenInitialized_no_fault fun _ => nofun
  | getNVRAM =>
    exact whenInitialized_no_fault_of_completes fun hphase =>
      execGetNVRAM_completes (hinv hphase) hphase
  | setNVRAM data =>
    exact whenInitialized_no_fault_of_completes fun hphase =>
      execSetNVRAM_completes (hinv hphase) hphase data
  | inject | setMirroringHorizontal | setMirroringVertical | setMirroringFourScreen
  | setMirroringSingleScreen | setMirroringAreas => exact nofun
  | _ => exact whenRunning_no_fault s _ f

/-! ## The window accesses (20_memory.md R52 to R55) -/

theorem State.Holds.read_completes {s : State} {sp : Space} {size a : Nat} (h : s.Holds sp size)
    (ha : a < size) : ∃ t, memRead sp a s = .next t := by
  obtain ⟨b, -, hread⟩ := h.read ha
  exact ⟨_, hread⟩

theorem State.Holds.store_completes {s : State} {sp : Space} {size a : Nat} (h : s.Holds sp size)
    (ha : a < size) (v : Byte) : ∃ t, memWrite sp a v s = .next t := by
  obtain ⟨m, hm, rfl, -⟩ := h
  exact ⟨_, memWrite_next.2 ⟨m, hm, ha, rfl⟩⟩

theorem cpuRead_completes {s : State} (h : BlockInv s) (a : Nat) : ∃ t, cpuRead a s = .next t := by
  rcases Nat.lt_or_ge a 0x8000 with hram | hrom
  · rcases Nat.lt_or_ge a 0x6000 with hlow | hwin
    · exact ⟨_, cpuRead_notOurs (.inl hlow)⟩
    · cases hu : s.prgRamMap with
      | none => exact ⟨_, cpuRead_notOurs (.inr ⟨Nat.le_of_lt_succ hram, hu⟩)⟩
      | some u =>
        rw [cpuRead_prgRAM hwin (Nat.le_of_lt_succ hram) hu]
        exact (h.holds_prgRAM (h.prgRamMap u hu).1).read_completes (h.prgRamIndex_lt hu a)
  · rw [cpuRead_prgROM hrom]
    exact h.holds_prgROM.read_completes (h.prgIndex_lt a)

theorem cpuStore_completes {s : State} (h : BlockInv s) (a : Nat) (v : Byte) :
    ∃ t, cpuStore a v s = .next t := by
  by_cases hout : a < 0x6000 ∨ 0x8000 ≤ a
  · exact ⟨_, cpuStore_outside hout v s⟩
  · cases hu : s.prgRamMap with
    | none => exact ⟨_, cpuStore_unmapped hu a v⟩
    | some u =>
      rw [cpuStore_prgRAM (by omega) (by omega) hu]
      exact (h.holds_prgRAM (h.prgRamMap u hu).1).store_completes (h.prgRamIndex_lt hu a) v

theorem ppuRead_completes {s : State} (h : BlockInv s) (p : Nat) : ∃ t, ppuRead p s = .next t := by
  by_cases hchr : ppuWindow p < 0x2000
  · rw [ppuRead_chr hchr]
    exact h.holds_chr.read_completes (h.chrIndex_lt p)
  · rw [ppuRead, if_neg hchr]
    split <;> exact ⟨_, rfl⟩

theorem ppuStore_completes {s : State} (h : BlockInv s) (p : Nat) (v : Byte) :
    ∃ t, ppuStore p v s = .next t := by
  by_cases hchr : ppuWindow p < 0x2000
  · rcases Nat.eq_zero_or_pos s.cfg.descriptor.chrROMSize with hram | hrom
    · rw [ppuStore_chrRAM hchr hram, ← chrSpace_of_ram hram]
      exact h.holds_chr.store_completes (h.chrIndex_lt p) v
    · exact ⟨_, ppuStore_chrROM hchr hrom v⟩
  · rw [ppuStore, if_neg hchr]
    split <;> exact ⟨_, rfl⟩

/-- An access is refused for its phase or its operands, or it completes. -/
theorem runAccess_no_fault {s : State} (hinv : Inv s) (x : Access) (f : Fault) :
    runAccess x s ≠ .fault f := by
  refine whenInitialized_no_fault fun hphase => ?_
  have h := hinv hphase
  cases x with
  | cpuRead a => exact ite_refused_no_fault (no_fault_of_completes (cpuRead_completes h a) f)
  | cpuStore a v =>
    exact ite_refused_no_fault
      (ite_refused_no_fault (no_fault_of_completes (cpuStore_completes h a _) f))
  | ppuRead p => exact ite_refused_no_fault (no_fault_of_completes (ppuRead_completes h p) f)
  | ppuStore p v =>
    exact ite_refused_no_fault
      (ite_refused_no_fault (no_fault_of_completes (ppuStore_completes h p _) f))

/-! ## The step -/

theorem runTransaction_no_fault {s : State} (hinv : Inv s) (x : Transaction) (f : Fault) :
    runTransaction x s ≠ .fault f := by
  unfold runTransaction
  split
  next i _ => exact exec_no_fault hinv i f
  next => exact nofun

/-- Settles O51: the list is no part of the invariant, and neither a transaction nor an access faults
under it. -/
theorem stepNeverFaults : Obligations.StepNeverFaults := by
  intro s hinv f
  cases hp : s.pending with
  | nil =>
    rw [step_of_idle hp]
    exact nofun
  | cons e rest =>
    rw [step_of_pending hp]
    have hrest := hinv.after_withPending rest
    cases e with
    | transaction x => exact runTransaction_no_fault hrest x f
    | access x => exact runAccess_no_fault hrest x f

end Sys2Proof.Machine
end

section
/-! The interrupt line (60_exceptions.md R233, R234): where it falls and where it rises. -/

namespace Sys2Proof.Machine

theorem assertFires_true {altMode enabled reload : Bool} {old new : Byte}
    (h : assertFires altMode enabled old reload new = true) : enabled = true ∧ new = 0 := by
  simp only [assertFires, Bool.and_eq_true, decide_eq_true_eq] at h
  exact h.1

/-- An update moves the line only where the assertion condition fires, and then up (R174, R175). -/
theorem Updated.line_rises {s t : State} (h : Updated s t) (hne : t.irqOut ≠ s.irqOut) :
    t.irqOut = true ∧ s.irqEnabled = true ∧ t.irqCounter = 0 := by
  have hout := h.irqOut_eq
  cases hfires : assertFires s.cfg.altMode s.irqEnabled s.irqCounter s.irqReloadPending t.irqCounter with
  | false =>
    rw [hfires, Bool.or_false] at hout
    exact absurd hout hne
  | true =>
    rw [hfires, Bool.or_true] at hout
    exact ⟨hout, assertFires_true hfires⟩

/-- A high tick moves the line only by an update (R171). -/
theorem exec_tickHigh_line_rises {s t : State} {p : Addr} (h : exec (.tickHigh p) s = .next t)
    (hne : t.irqOut ≠ s.irqOut) :
    t.irqOut = true ∧ s.irqEdgeFilterDelay = 0 ∧ s.irqEnabled = true ∧ t.irqCounter = 0 := by
  obtain ⟨hrun, ht⟩ := whenRunning_next.1 h
  by_cases hdelay : s.irqEdgeFilterDelay = 0
  · obtain ⟨hout, hrest⟩ := (updated_of_exec_tickHigh h hrun hdelay).line_rises hne
    exact ⟨hout, hdelay, hrest⟩
  · rw [← ht, highTick_of_delay hdelay] at hne
    exact absurd rfl hne

/-- The instructions that move the line, each with its direction and its condition. -/
theorem exec_line_changes {i : Instr} {s t : State} (hphase : s.phase ≠ .uninit)
    (h : exec i s = .next t) (hne : t.irqOut ≠ s.irqOut) :
    (t.irqOut = false ∧ (i = .powerUp ∨ ∃ a v, i = .irqDisable a v)) ∨
    (t.irqOut = true ∧ (∃ p, i = .tickHigh p) ∧ s.irqEdgeFilterDelay = 0 ∧ s.irqEnabled = true ∧
      t.irqCounter = 0) := by
  by_cases hpower : i = .powerUp
  · subst hpower
    obtain ⟨-, rfl⟩ := exec_powerUp_next.1 h
    exact .inl ⟨poweredUp_irqOut s, .inl rfl⟩
  · obtain ⟨a, v, rfl⟩ | ⟨p, rfl⟩ :=
      (fieldsChangeOnlyByTheirWriters s t i hphase h hpower).irqOut hne
    · obtain ⟨-, rfl⟩ := whenRunning_next.1 h
      exact .inl ⟨rfl, .inr ⟨a, v, rfl⟩⟩
    · obtain ⟨hout, hrise⟩ := exec_tickHigh_line_rises h hne
      exact .inr ⟨hout, ⟨p, rfl⟩, hrise⟩

/-- Settles O53: an access writes no register, so the step is a transaction, and its instruction is one
of `exec_line_changes`. -/
theorem lineChangesOnlyByItsRules : Obligations.LineChangesOnlyByItsRules := by
  intro s t hphase hstep hne
  obtain ⟨e, rest, hp, h⟩ := step_next.1 hstep
  have hrest : t.pending = rest := (runEvent_change h).pending_eq
  cases e with
  | access x =>
    obtain ⟨p, c, r, rfl⟩ := runAccess_writes h
    exact absurd rfl hne
  | transaction x =>
    obtain ⟨i, hd, h⟩ := runTransaction_next.1 h
    refine ⟨x, i, by rw [hp, hrest], hd, ?_⟩
    rcases exec_line_changes (s := s.withPending rest) hphase h hne with
      ⟨hfalse, hfall⟩ | ⟨htrue, hrise⟩
    · exact ⟨fun _ => hfall, fun htrue => Bool.noConfusion (hfalse.symm.trans htrue)⟩
    · exact ⟨fun hfalse => Bool.noConfusion (hfalse.symm.trans htrue), fun _ => hrise⟩

end Sys2Proof.Machine
end

section
/-! The state after reset (70_reset_and_hazards.md R260, R261): a powered-up block, so it meets the
invariant. -/

namespace Sys2Proof.Machine

theorem powerUp_initialized_resetDescriptor :
    exec .powerUp (initialized resetDescriptor State.reset) = .next State.reset :=
  resetStateIsPowerUp _ _ nofun rfl rfl rfl rfl

/-- Settles O50: the invariant starts at `initialize`, and `powerUp` keeps it up to the state after
reset. -/
theorem resetMeetsBlockInvariant : Obligations.ResetMeetsBlockInvariant := by
  have hd : resetDescriptor.wellFormed = true := by decide
  have hinit : Inv (initialized resetDescriptor State.reset) :=
    fun _ => BlockInv.of_initialise hd State.reset
  exact (exec_change powerUp_initialized_resetDescriptor).keeps_inv hinit

end Sys2Proof.Machine
end
